-- ==== Sys2Proof/Word.lean ====
section
/-! DEFINITION. The word types of the block: command and result words (30 R65, R75) and the byte of a serial
transfer (20 R53). -/

namespace Sys2Proof

/-- A command word or a result word: a single 32-bit value with no byte order (20 R53). -/
abbrev Word := BitVec 32

/-- A segment byte, what one serial transfer carries (30 R73, 20 R55). -/
abbrev Byte := BitVec 8

/-- A slot code: 0 to 9 a digit, 0xF blank, 0xA to 0xE invalid (30 R70). -/
abbrev Code := BitVec 4

/-- The levels of the four row sense lines at one instant; bit `r` is the level of row `r` (42 R156). -/
abbrev Rows := BitVec 4

end Sys2Proof
end

