-- ==== Sys2Proof/Config.lean ====
section
/-! DEFINITION. The parameters of the block (00 R7) and the values its sources leave open. The parameters are one
record, `Params`, which the machine carries unchanged (10 R35); what no source fixes is an opaque constant, which no
proof can evaluate. -/

namespace Sys2Proof

/-- A character of the keypad: ten digits, the letters A to D, `*` and `#` (30 R74). -/
inductive KeyChar where
  | digit (d : Fin 10)
  | a | b | c | d
  | star
  | hash
  deriving DecidableEq, Repr

/-- What `CMD_MAP` may give a character: one of the five commands, or none (42 R158). -/
inductive Command where
  | delete | clear | enter | adminToggle | secondarySet | none
  deriving DecidableEq, Repr, Inhabited

/-- `CMD_MAP`: the command of each of the five characters that no source ties to one (42 R158). -/
structure CmdMap where
  a : Command
  b : Command
  c : Command
  d : Command
  star : Command
  deriving DecidableEq, Repr, Inhabited

/-- `AUTOCLEAR_CMP`: the comparison that fires the auto-clear (43 R187, R188). -/
inductive AutoclearCmp where
  | absolute
  | wrapsafe
  deriving DecidableEq, Repr

/-- How the trace records a serial transfer: one `Shift` event (41 R128), or the line-level refinement (41 R130). -/
inductive SerialDetail where
  | byteLevel
  | lineLevel
  deriving DecidableEq, Repr

/-- `KEYMAP`: the character at row `r`, column `c` is `k[r][c]` (42 R152). -/
abbrev Keymap := Vector (Vector KeyChar 4) 4

/-- The parameters of 00 R7. `NPOS`, `NROW` and `NCOL` are fixed at 4 and stand in the types. -/
structure Params where
  /-- `W`, the width of the clock and of every timestamp. -/
  width : Nat
  /-- `DEBOUNCE`, in clock ticks. -/
  debounce : Nat
  /-- `AUTOCLEAR`, in clock ticks. -/
  autoclear : Nat
  /-- `SETTLE`: no rule depends on it (41 R129). -/
  settle : Nat
  keymap : Keymap
  cmdMap : CmdMap
  /-- `ON_LEVEL`, the electrical value of an indicator that is on (43 R191). -/
  onLevel : Nat
  autoclearCmp : AutoclearCmp
  serial : SerialDetail
  deriving DecidableEq, Repr

/-- `CMD_MAP` is OPEN (00 R7, D8). -/
opaque Config.cmdMap : CmdMap

/-- `SETTLE` is OPEN (00 R7, D6). -/
opaque Config.settle : Nat

/-- `ON_LEVEL` is OPEN (00 R7, D24). That it is a level other than 0, one more than this value, is a DESIGN CHOICE,
log 7. -/
opaque Config.onLevelLessOne : Nat

/-- The contents of the shift register at power-on: an 8-bit draw (70 R240, R242). -/
opaque Config.srqAtReset : Byte

/-- The environment's clock samples, by number: unconstrained draws (10 R41). The machine takes each modulo `2^W`. -/
opaque Config.freeClock : Nat → Nat

/-- The environment's row samples, by number: unconstrained draws (42 R156). -/
opaque Config.freeRows : Nat → Rows

/-- The masks of invalid codes, by number: unconstrained draws (40 R106). -/
opaque Config.freeMask : Nat → Byte

/-- The default `KEYMAP`: rows 123A, 456B, 789C, *0#D. PRESUMED, log 5 (42 R152, D7). -/
def Config.defaultKeymap : Keymap :=
  #v[#v[.digit 1, .digit 2, .digit 3, .a],
     #v[.digit 4, .digit 5, .digit 6, .b],
     #v[.digit 7, .digit 8, .digit 9, .c],
     #v[.star, .digit 0, .hash, .d]]

/-- The parameters at reset: the decided defaults of 00 R7 and the opaque values of its OPEN ones. -/
def Config.params : Params where
  width := 32
  debounce := 300
  autoclear := 10000
  settle := Config.settle
  keymap := Config.defaultKeymap
  cmdMap := Config.cmdMap
  onLevel := Config.onLevelLessOne + 1
  autoclearCmp := .absolute
  serial := .byteLevel

end Sys2Proof
end

