-- ==== Sys2Proof/Machine/State.lean ====
section
/-! DEFINITION. The machine's state as plain data: the block's state (10 R21), the command stream (10 R36), the
observation of a run (00 R12, 60 R231), the parameters it carries unchanged (10 R35) and the environment's inputs
(10 R41). -/

namespace Sys2Proof.Machine

/-- The output lines (00 R12, 10 R29). -/
inductive Line where
  | data | clk | latch
  | en1 | en2 | en3
  | col0 | col1 | col2 | col3
  | succ | fail | adm
  deriving DecidableEq, Repr

/-- `LINE[P]`, the last driven level of each output line; `true` is level 1 (10 R29). -/
structure Lines where
  data : Bool
  clk : Bool
  latch : Bool
  en1 : Bool
  en2 : Bool
  en3 : Bool
  col0 : Bool
  col1 : Bool
  col2 : Bool
  col3 : Bool
  succ : Bool
  fail : Bool
  adm : Bool
  deriving DecidableEq, Repr

/-- The kinds of report: one (60 R211). -/
inductive ReportKind where
  | invalidDigit
  deriving DecidableEq, Repr

/-- What a report carries (60 R211): the code alone for ENC, the position and the code for RENDER. -/
inductive ReportInfo where
  | code (c : Code)
  | slot (p : Fin 4) (c : Code)
  deriving DecidableEq, Repr

/-- An event of the output trace (00 R12). -/
inductive Event where
  /-- Output line `p` is driven to `level`. -/
  | drive (p : Line) (level : Bool)
  /-- One serial transfer of `b`, framed by a latch pulse (41 R128). -/
  | shift (b : Byte)
  /-- The row lines are sampled while column `c` is driven (42 R156). -/
  | sample (c : Fin 4) (rows : Rows)
  /-- One settle delay (41 R129). -/
  | settle
  | report (kind : ReportKind) (info : ReportInfo)
  deriving DecidableEq, Repr

/-- A source of values the environment draws: those already known, next first, and how many have been drawn since
reset. Past the queue a draw is the free value of its number (log 9). The model's own, not the spec's state. -/
structure Source (α : Type) where
  queue : List α
  drawn : Nat
  deriving DecidableEq, Repr

/-- The machine's state. `cfg`, `clock`, `rows` and `masks` are the model's own (log 1, log 9); `trace` and `results`
are the observation of the run (log 17). -/
structure State where
  /-- The parameters of 00 R7, which no operation changes (10 R35). -/
  cfg : Params
  /-- `DSLOT[0..3]` (10 R22). -/
  dslot : Vector Code 4
  /-- `LAST` (10 R23), a number below `2^W`. -/
  last : Nat
  /-- `DEADLINE` (10 R24), a number below `2^W`; 0 is disarmed. -/
  deadline : Nat
  /-- `SUCC` (10 R25). -/
  succ : Bool
  /-- `FAIL` (10 R26). -/
  fail : Bool
  /-- `ADM` (10 R27). -/
  adm : Bool
  /-- `SR_Q`, the latched outputs of the shift register (10 R28). -/
  srq : Byte
  /-- `LINE[P]` (10 R29). -/
  lines : Lines
  /-- `REFUSED` (10 R34). -/
  refused : Bool
  /-- The command stream `prog[0..n-1]` (10 R36). -/
  prog : List Word
  /-- The index into the command stream (10 R39). -/
  pc : Nat
  /-- The clock samples to come (10 R41). -/
  clock : Source Nat
  /-- The row samples to come (42 R156). -/
  rows : Source Rows
  /-- The masks of invalid codes to come (40 R106). -/
  masks : Source Byte
  /-- The output trace, oldest event first (00 R12). -/
  trace : List Event
  /-- The result words of the operations completed, oldest first (30 R75, 60 R231). -/
  results : List Word
  deriving DecidableEq, Repr

/-- Why the block itself would stop: nothing (60 R210: no exception, no trap, no abort). -/
inductive Fault : Type
  deriving DecidableEq, Repr

/-- Why a step has no meaning. -/
inductive Refusal where
  /-- Raised by an arm of `exec` whose instruction has no meaning yet; no arm raises it now. Safe: the model stops. -/
  | notModelled (mnemonic : String)
  /-- Raised by `step` in a state with `REFUSED = 1`: the run stopped at a word that spells no operation (10 R37,
  60 R212, R231). Safe: nothing can be proved about a run past that word. -/
  | streamRefused
  deriving DecidableEq, Repr

/-- The levels of the output lines after reset (10 R29, 70 R240): the columns idle at 1, every other line at 0. -/
def Lines.reset : Lines where
  data := false
  clk := false
  latch := false
  en1 := false
  en2 := false
  en3 := false
  col0 := true
  col1 := true
  col2 := true
  col3 := true
  succ := false
  fail := false
  adm := false

/-- A source at reset: nothing known, nothing drawn (log 9). -/
def Source.reset {α : Type} : Source α := { queue := [], drawn := 0 }

/-- The machine right after reset (70 R240): no command stream is loaded (log 15) and nothing has been observed
(70 R241). -/
def State.reset : State where
  cfg := Config.params
  dslot := #v[0xF#4, 0xF#4, 0xF#4, 0xF#4]
  last := 0
  deadline := 0
  succ := false
  fail := false
  adm := false
  srq := Config.srqAtReset
  lines := Lines.reset
  refused := false
  prog := []
  pc := 0
  clock := Source.reset
  rows := Source.reset
  masks := Source.reset
  trace := []
  results := []

end Sys2Proof.Machine
end

