-- ==== Sys2Proof/Machine/Operands.lean ====
section
/-! DEFINITION. The values commands take and give: slot codes and the segment table (30 R70, 40 R101 to R105), keypad
characters and key events (30 R71, R74, 42 R152, R158), and POLL's result word (30 R72). -/

namespace Sys2Proof.Machine

/-- The slot code is a digit (30 R70). -/
def isDigit (code : Code) : Bool := decide (code.toNat ≤ 9)

/-- The slot code of a blank cell (30 R70). -/
def blankCode : Code := 0xF#4

/-- The slot code is neither a digit nor blank: 0xA to 0xE (30 R70). -/
def isInvalid (code : Code) : Bool := !isDigit code && code != blankCode

/-- `seg7(d)`: the segment bits of a digit, bit 6 first (40 R101). -/
def seg7 (code : Code) : BitVec 7 :=
  let d := code.toNat
  BitVec.ofBoolListBE
    [decide (d ∈ [0, 1, 7]), decide (d ∈ [1, 2, 3, 7]), decide (d ∉ [0, 2, 6, 8]), decide (d ∈ [1, 4, 7]),
     decide (d = 2), decide (d ∈ [5, 6]), decide (d ∈ [1, 4])]

/-- The blank mask: every segment dark (40 R104). -/
def blankSeg : BitVec 7 := 0x7F#7

/-- The segment byte of a mask: bit 7 is the first-position flag (40 R105). -/
def segByte (f : Bool) (seg : BitVec 7) : Byte := BitVec.ofBool f ++ seg

/-- The mask of a segment byte, its bits 6:0 (30 R73). -/
def maskOf (b : Byte) : BitVec 7 := b.extractLsb' 0 7

/-- A key event (30 R71). -/
inductive KeyEvent where
  | digit (d : Fin 10)
  | delete | clear | enter | adminToggle | secondarySet | none
  deriving DecidableEq, Repr

/-- The key-event code (30 R71). -/
def eventCode : KeyEvent → BitVec 4
  | .digit d => BitVec.ofNat 4 d.val
  | .delete => 0xA#4
  | .clear => 0xB#4
  | .enter => 0xC#4
  | .adminToggle => 0xD#4
  | .secondarySet => 0xE#4
  | .none => 0xF#4

/-- The key event of a command (42 R158). -/
def commandEvent : Command → KeyEvent
  | .delete => .delete
  | .clear => .clear
  | .enter => .enter
  | .adminToggle => .adminToggle
  | .secondarySet => .secondarySet
  | .none => .none

/-- `decode(ch)`: digits give their digit, `#` gives Enter, the other five give `CMD_MAP` (42 R158). -/
def charEvent (m : CmdMap) : KeyChar → KeyEvent
  | .digit d => .digit d
  | .hash => .enter
  | .a => commandEvent m.a
  | .b => commandEvent m.b
  | .c => commandEvent m.c
  | .d => commandEvent m.d
  | .star => commandEvent m.star

/-- `KEYMAP[r][c]` (42 R152). -/
def keyAt (k : Keymap) (r c : Fin 4) : KeyChar := k[r][c]

/-- The key event of the key at row `r`, column `c` (42 R157). -/
def keyEvent (p : Params) (r c : Fin 4) : KeyEvent := charEvent p.cmdMap (keyAt p.keymap r c)

/-- The ASCII code of a keypad character; no character leaves the block (30 R74). -/
def ascii : KeyChar → Byte
  | .digit d => BitVec.ofNat 8 (0x30 + d.val)
  | .a => 0x41#8
  | .b => 0x42#8
  | .c => 0x43#8
  | .d => 0x44#8
  | .star => 0x2A#8
  | .hash => 0x23#8

/-- The lowest row whose level is 0, the active level (42 R153, R155). -/
def lowestActive (rows : Rows) : Option (Fin 4) := [0, 1, 2, 3].find? fun r => !rows.getLsbD r.val

/-- POLL's result on a hit: `COL`, `ROW`, `HIT = 1` and `EVT` (30 R72, 42 R160). -/
def hitWord (c r : Fin 4) (e : KeyEvent) : Word :=
  (BitVec.ofNat 32 c.val <<< 7) ||| (BitVec.ofNat 32 r.val <<< 5) ||| (1#32 <<< 4) ||| (eventCode e).setWidth 32

/-- POLL's result without a hit: `HIT = 0`, `EVT` none (30 R72, 42 R160). -/
def noHitWord : Word := 0x0000000F#32

end Sys2Proof.Machine
end

