-- ==== Sys2Proof/Machine/Ops.lean ====
section
/-! DEFINITION. The named operations every meaning is written over (00 R10): line levels, the environment's draws, the
output trace, the serial transfer, and completing or refusing a command. The block has no memory to access (20 R50)
and takes no exception (60 R210, R215), so there is no operation for either. -/

namespace Sys2Proof.Machine

/-- `LINE[P]` (10 R29). -/
def Lines.get (l : Lines) : Line → Bool
  | .data => l.data
  | .clk => l.clk
  | .latch => l.latch
  | .en1 => l.en1
  | .en2 => l.en2
  | .en3 => l.en3
  | .col0 => l.col0
  | .col1 => l.col1
  | .col2 => l.col2
  | .col3 => l.col3
  | .succ => l.succ
  | .fail => l.fail
  | .adm => l.adm

/-- `LINE[P] <- v` (10 R29). -/
def Lines.set (l : Lines) (p : Line) (v : Bool) : Lines :=
  match p with
  | .data => { l with data := v }
  | .clk => { l with clk := v }
  | .latch => { l with latch := v }
  | .en1 => { l with en1 := v }
  | .en2 => { l with en2 := v }
  | .en3 => { l with en3 := v }
  | .col0 => { l with col0 := v }
  | .col1 => { l with col1 := v }
  | .col2 => { l with col2 := v }
  | .col3 => { l with col3 := v }
  | .succ => { l with succ := v }
  | .fail => { l with fail := v }
  | .adm => { l with adm := v }

/-- The drive line of a key column (42 R154). -/
def colLine (c : Fin 4) : Line :=
  match c with
  | 0 => .col0
  | 1 => .col1
  | 2 => .col2
  | 3 => .col3

/-- The `k`-th value a source has still to give: from its queue, and past it the free value of that draw's number
(log 9). -/
def Source.at {α : Type} (free : Nat → α) (src : Source α) (k : Nat) : α :=
  (src.queue[k]?).getD (free (src.drawn + k))

/-- A source after one draw. -/
def Source.next {α : Type} (src : Source α) : Source α :=
  { queue := src.queue.tail, drawn := src.drawn + 1 }

/-- The `k`-th clock sample to come, a `W`-bit value (10 R41). -/
def State.nowAt (s : State) (k : Nat) : Nat := s.clock.at Config.freeClock k % 2 ^ s.cfg.width

/-- The value that sampling `now` gives next (10 R41). -/
def State.now (s : State) : Nat := s.nowAt 0

/-- `now` has been sampled (10 R41). -/
def State.clockDrawn (s : State) : State := { s with clock := s.clock.next }

/-- The `k`-th row sample to come (42 R156). -/
def State.rowsAt (s : State) (k : Nat) : Rows := s.rows.at Config.freeRows k

/-- The `k`-th mask of an invalid code to come (40 R106). -/
def State.maskAt (s : State) (k : Nat) : Byte := s.masks.at Config.freeMask k

/-- A mask of an invalid code has been drawn (40 R106). -/
def State.maskDrawn (s : State) : State := { s with masks := s.masks.next }

/-- Append an event to the output trace (00 R12, 20 R59). -/
def State.emit (s : State) (e : Event) : State := { s with trace := s.trace ++ [e] }

/-- `pin(P) <- level`: drive the line and trace the drive, even where the level is unchanged (00 R10, 43 R180). -/
def State.pin (s : State) (p : Line) (level : Bool) : State :=
  { s with lines := s.lines.set p level, trace := s.trace ++ [.drive p level] }

/-- `report(kind, info)`: a trace event and nothing else (60 R211). -/
def State.report (s : State) (kind : ReportKind) (info : ReportInfo) : State := s.emit (.report kind info)

/-- `settle()`: a trace event and nothing else (41 R129). -/
def State.settle (s : State) : State := s.emit .settle

/-- `sample_rows()` with column `c` driven: the sample is `s.rowsAt 0` (42 R156). -/
def State.sampleRows (s : State) (c : Fin 4) : State :=
  { s with rows := s.rows.next, trace := s.trace ++ [.sample c (s.rowsAt 0)] }

/-- The line drives of one transfer in the line-level refinement, most significant bit first (41 R130, 20 R53). -/
def serialDrives (b : Byte) : List (Line × Bool) :=
  [(.latch, false)] ++
    [7, 6, 5, 4, 3, 2, 1, 0].flatMap (fun i => [(.data, b.getLsbD i), (.clk, true), (.clk, false)]) ++
    [(.latch, true)]

/-- Drive lines one after the other. -/
def State.pins (s : State) : List (Line × Bool) → State
  | [] => s
  | d :: ds => (s.pin d.1 d.2).pins ds

/-- `shift_latch(b)`: transfer `b` and latch it, `SR_Q <- b` (41 R128); in the line-level refinement the transfer is
its line drives (41 R130). -/
def State.shiftLatch (s : State) (b : Byte) : State :=
  match s.cfg.serial with
  | .byteLevel => { s.emit (.shift b) with srq := b }
  | .lineLevel => { s.pins (serialDrives b) with srq := b }

/-- An operation completes: its result word goes to the host (30 R75) and `pc <- pc + 1` (10 R39). -/
def State.finish (s : State) (result : Word) : State :=
  { s with results := s.results ++ [result], pc := s.pc + 1 }

/-- A word that spells no operation: `REFUSED <- 1` and nothing else (30 R76, 60 R212). -/
def State.refuse (s : State) : State := { s with refused := true }

end Sys2Proof.Machine
end

