-- ==== Sys2Proof/Machine/Encoder.lean ====
section
/-! DEFINITION. The segment encoder (40) and the meaning of ENC. -/

namespace Sys2Proof.Machine

/-- The byte `encode(code, F)` gives in state `s`: for an invalid code the next drawn mask, whose bit 7 is forced to 0
where `F = 0` (40 R106, R107). -/
def segEncode (s : State) (f : Bool) (code : Code) : Byte :=
  if isDigit code then segByte f (seg7 code)
  else if code = blankCode then segByte f blankSeg
  else if f then s.maskAt 0 else segByte false (maskOf (s.maskAt 0))

/-- What `encode` leaves behind: for an invalid code a report and the draw, else nothing (40 R106, R107). -/
def segEncoded (s : State) (code : Code) (info : ReportInfo) : State :=
  if isInvalid code then (s.report .invalidDigit info).maskDrawn else s

/-- ENC (40 R100): the result is the segment byte, zero-extended. -/
def execEnc (f : Bool) (code : Code) (s : State) : Host.Outcome State Fault Refusal :=
  .next ((segEncoded s code (.code code)).finish ((segEncode s f code).setWidth 32))

end Sys2Proof.Machine
end

