-- ==== Sys2Proof/Machine/Display.lean ====
section
/-! DEFINITION. The display multiplexer (41) and the meanings of SLOTS and RENDER. -/

namespace Sys2Proof.Machine

/-- SLOTS (41 R120): the four cells as given, invalid codes too (41 R121). -/
def execSlots (s0 s1 s2 s3 : Code) (s : State) : Host.Outcome State Fault Refusal :=
  .next ({ s with dslot := #v[s0, s1, s2, s3] }.finish 0#32)

/-- Position 0 (41 R123): the mask with the enable bit set, a settle delay, the mask with it cleared. -/
def renderFirst (s : State) : State :=
  let code := s.dslot[0]
  let m := segEncode s true code
  (((segEncoded s code (.slot 0 code)).shiftLatch m).settle).shiftLatch (segByte false (maskOf m))

/-- Position `p` in 1 to 3, enabled by the line `en` (41 R124): blank is driven off, any other mask is transferred and
the enable pulsed. -/
def renderOther (p : Fin 4) (en : Line) (s : State) : State :=
  let code := s.dslot[p]
  let m := segEncode s false code
  let s' := segEncoded s code (.slot p code)
  if maskOf m = blankSeg then s'.pin en false
  else (((s'.shiftLatch m).pin en true).settle).pin en false

/-- The four positions in order 0, 1, 2, 3 (41 R122, R125). -/
def renderAll (s : State) : State :=
  renderOther 3 .en3 (renderOther 2 .en2 (renderOther 1 .en1 (renderFirst s)))

/-- RENDER (41 R125). -/
def execRender (s : State) : Host.Outcome State Fault Refusal := .next ((renderAll s).finish 0#32)

end Sys2Proof.Machine
end

