-- ==== Sys2Proof/Machine/Timing.lean ====
section
/-! DEFINITION. Timestamp arithmetic modulo `2^W` (00 R11) and the two comparisons made with it: the debounce window
(42 R151) and the auto-clear deadline (43 R187, R188). -/

namespace Sys2Proof.Machine

/-- `a +_W b` (00 R11). -/
def wrapAdd (w a b : Nat) : Nat := (a + b) % 2 ^ w

/-- `a -_W b` (00 R11). -/
def wrapSub (w a b : Nat) : Nat := (a + (2 ^ w - b % 2 ^ w)) % 2 ^ w

/-- A poll at `t` falls in the debounce window after `last`: `(t -_W LAST) < DEBOUNCE`, never
`LAST + DEBOUNCE > now` (42 R151, 70 R250). -/
def debounced (p : Params) (t last : Nat) : Bool := decide (wrapSub p.width t last < p.debounce)

/-- `due(t, d)` of 43 R187; the wrap-safe alternative is 43 R188. -/
def due (p : Params) (t d : Nat) : Bool :=
  match p.autoclearCmp with
  | .absolute => decide (d ≤ t)
  | .wrapsafe => decide (wrapSub p.width t d < 2 ^ (p.width - 1))

/-- The auto-clear timer is armed: `DEADLINE != 0` (10 R24, R31). -/
def State.armed (s : State) : Bool := s.deadline != 0

/-- `DEADLINE <- t +_W AUTOCLEAR` (43 R181). A sum of 0 leaves the timer disarmed (43 R183). -/
def State.arm (s : State) (t : Nat) : State := { s with deadline := wrapAdd s.cfg.width t s.cfg.autoclear }

/-- `DEADLINE <- 0` (43 R184). -/
def State.disarm (s : State) : State := { s with deadline := 0 }

end Sys2Proof.Machine
end

