-- ==== Sys2Proof/Machine/Flags.lean ====
section
/-! DEFINITION. The status bits. The block has no condition codes (10 R31): its status bits are the three indicators,
each of which drives its line whenever it is written (43 R180), and the armed state of the timer (Timing.lean). -/

namespace Sys2Proof.Machine

/-- `SUCC <- v ; pin(SUCC) <- v` (43 R180). -/
def State.setSucc (s : State) (v : Bool) : State := { s with succ := v }.pin .succ v

/-- `FAIL <- v ; pin(FAIL) <- v` (43 R180). -/
def State.setFail (s : State) (v : Bool) : State := { s with fail := v }.pin .fail v

/-- `ADM <- v ; pin(ADM) <- v` (43 R180). -/
def State.setAdm (s : State) (v : Bool) : State := { s with adm := v }.pin .adm v

/-- Turn success and failure off, in that order, and disarm the timer (43 R184, R187). -/
def State.clearFeedback (s : State) : State := ((s.setSucc false).setFail false).disarm

end Sys2Proof.Machine
end

