-- ==== Sys2Proof/Machine/Feedback.lean ====
section
/-! DEFINITION. The feedback outputs and the auto-clear timer (43): the meanings of FIRES, FIREF, CLRFB, ADMON, ADMOFF
and CHKAC. -/

namespace Sys2Proof.Machine

/-- FIRES (43 R181): `FAIL` and `ADM` are left alone (43 R194). -/
def execFires (s : State) : Host.Outcome State Fault Refusal :=
  .next (((s.clockDrawn.setSucc true).arm s.now).finish 0#32)

/-- FIREF (43 R182): `SUCC` and `ADM` are left alone (43 R194). -/
def execFiref (s : State) : Host.Outcome State Fault Refusal :=
  .next (((s.clockDrawn.setFail true).arm s.now).finish 0#32)

/-- CLRFB (43 R184): `ADM` is left alone (43 R189). -/
def execClrfb (s : State) : Host.Outcome State Fault Refusal := .next (s.clearFeedback.finish 0#32)

/-- ADMON (43 R185). -/
def execAdmon (s : State) : Host.Outcome State Fault Refusal := .next ((s.setAdm true).finish 0#32)

/-- ADMOFF (43 R186). -/
def execAdmoff (s : State) : Host.Outcome State Fault Refusal := .next ((s.setAdm false).finish 0#32)

/-- The state after CHKAC's check (43 R187): feedback is cleared where the timer is armed and its deadline is due. -/
def checkAutoClear (s : State) : State :=
  if s.armed && due s.cfg s.now s.deadline then s.clockDrawn.clearFeedback else s.clockDrawn

/-- CHKAC (43 R187): `ADM` is left alone (43 R189). -/
def execChkac (s : State) : Host.Outcome State Fault Refusal := .next ((checkAutoClear s).finish 0#32)

end Sys2Proof.Machine
end

