-- ==== Sys2Proof/Machine/Keypad.lean ====
section
/-! DEFINITION. The keypad scanner (42) and the meaning of POLL. -/

namespace Sys2Proof.Machine

/-- Scan the columns of a list in order (42 R153, R157, R159, R160). Each is driven, sampled and restored before the
next; the first active row ends the scan, with `LAST <- t` before the column is restored. -/
def scan (t : Nat) : List (Fin 4) → State → State × Word
  | [], s => (s, noHitWord)
  | c :: cs, s =>
    let driven := s.pin (colLine c) false
    match lowestActive (driven.rowsAt 0) with
    | some r =>
      ({ driven.sampleRows c with last := t }.pin (colLine c) true, hitWord c r (keyEvent s.cfg r c))
    | none => scan t cs ((driven.sampleRows c).pin (colLine c) true)

/-- POLL without its completion (42 R160): `now` is sampled first; inside the debounce window nothing else happens
(42 R151). -/
def pollKeys (s : State) : State × Word :=
  if debounced s.cfg s.now s.last then (s.clockDrawn, noHitWord)
  else scan s.now [0, 1, 2, 3] s.clockDrawn

/-- POLL (42 R160). -/
def execPoll (s : State) : Host.Outcome State Fault Refusal := .next ((pollKeys s).1.finish (pollKeys s).2)

end Sys2Proof.Machine
end

