-- ==== Sys2Proof/Syntax.lean ====
section
/-! DEFINITION. The operations of the block, one constructor per row of the opcode table (30 R69). The operand
types are exactly the fields of the formats FE and FS (30 R67, R68), so a term of `Instr` holds no field that its
word could not. -/

namespace Sys2Proof

/-- The ten operations of 30 R69. -/
inductive Instr where
  /-- ENC (40 R100): `f` is `F`, `code` is `CODE`. -/
  | enc (f : Bool) (code : Code)
  /-- SLOTS (41 R120): cell `i` is `s<i>`; cell 0 is the first position. -/
  | slots (s0 s1 s2 s3 : Code)
  /-- RENDER (41 R125). -/
  | render
  /-- POLL (42 R160). -/
  | poll
  /-- FIRES (43 R181). -/
  | fires
  /-- FIREF (43 R182). -/
  | firef
  /-- CLRFB (43 R184). -/
  | clrfb
  /-- ADMON (43 R185). -/
  | admon
  /-- ADMOFF (43 R186). -/
  | admoff
  /-- CHKAC (43 R187). -/
  | chkac
  deriving DecidableEq, Repr

end Sys2Proof
end

