-- ==== Sys2Proof/Machine/Dispatch.lean ====
section
/-! DEFINITION. One arm per operation: its meaning. -/

namespace Sys2Proof.Machine

-- The outcome of performing one operation (60 R210: every operation completes).
def exec (i : Instr) (s : State) : Host.Outcome State Fault Refusal :=
  match i with
  | .enc f code => Sys2Proof.Machine.execEnc f code s
  | .slots s0 s1 s2 s3 => Sys2Proof.Machine.execSlots s0 s1 s2 s3 s
  | .render => Sys2Proof.Machine.execRender s
  | .poll => Sys2Proof.Machine.execPoll s
  | .fires => Sys2Proof.Machine.execFires s
  | .firef => Sys2Proof.Machine.execFiref s
  | .clrfb => Sys2Proof.Machine.execClrfb s
  | .admon => Sys2Proof.Machine.execAdmon s
  | .admoff => Sys2Proof.Machine.execAdmoff s
  | .chkac => Sys2Proof.Machine.execChkac s

end Sys2Proof.Machine
end

