-- ==== Sys2Proof/WellFormed.lean ====
section
/-! DEFINITION. What is well formed. An `Instr` always is, by its operand types; the checks are on what can fail
them: a command word cut into its two fields (30 R65 to R69), and the parameters (00 R7, 42 R152). -/

namespace Sys2Proof

/-- A command word as its two fields (30 R65). -/
structure RawCmd where
  op : BitVec 8
  opd : BitVec 24
  deriving DecidableEq, Repr

/-- The opcode is one of the opcode map's ten (30 R69). -/
def RawCmd.opKnown (r : RawCmd) : Bool := decide (1 ≤ r.op.toNat ∧ r.op.toNat ≤ 10)

/-- The bits that the opcode's format requires to be 0 are 0: format FE (30 R67), FS (30 R68), F0 (30 R66). -/
def RawCmd.reservedClear (r : RawCmd) : Bool :=
  if r.op = 0x01#8 then r.opd.extractLsb' 5 19 == 0#19
  else if r.op = 0x02#8 then r.opd.extractLsb' 16 8 == 0#8
  else r.opd == 0#24

/-- The command word spells an operation (30 R76). -/
def RawCmd.wellFormed (r : RawCmd) : Bool := r.opKnown && r.reservedClear

/-- The sixteen characters of the keypad (30 R74). -/
def allKeyChars : List KeyChar :=
  [.digit 0, .digit 1, .digit 2, .digit 3, .digit 4, .digit 5, .digit 6, .digit 7, .digit 8, .digit 9,
   .a, .b, .c, .d, .star, .hash]

/-- The keymap's characters, row by row. -/
def keymapChars (k : Keymap) : List KeyChar := k.toList.flatMap (·.toList)

/-- Every character stands on exactly one key (42 R152). -/
def keymapWellFormed (k : Keymap) : Bool := allKeyChars.all fun ch => (keymapChars k).count ch == 1

/-- The parameters are as 00 R7 wants them: `W` at least 15, both durations in the clock's range, a keymap that uses
each character once, and an "on" level that is not the "off" level (DESIGN CHOICE, log 7). -/
def Params.wellFormed (p : Params) : Bool :=
  decide (15 ≤ p.width) && decide (p.debounce < 2 ^ p.width) && decide (p.autoclear < 2 ^ p.width) &&
    keymapWellFormed p.keymap && decide (p.onLevel ≠ 0)

end Sys2Proof
end

