-- ==== Sys2Proof/Decode.lean ====
section
/-! DEFINITION. Decoding a command word (30 R76), total on every word and refusing by name, and the encoder, written
from the formats (30 R66 to R68) and the opcode map (30 R69). -/

namespace Sys2Proof

/-- Why a word spells no operation (30 R76). -/
inductive DecodeError where
  /-- `OP` is outside 0x01 to 0x0A. -/
  | unknownOpcode (op : BitVec 8)
  /-- A known `OP` whose format requires a bit to be 0 that is 1. -/
  | reservedBits (op : BitVec 8)
  deriving DecidableEq, Repr

/-- The fields of a word: `OP` is bits 31:24, `OPD` bits 23:0 (30 R65). -/
def rawOf (w : Word) : RawCmd where
  op := w.extractLsb' 24 8
  opd := w.extractLsb' 0 24

/-- The operation of format F0 that an opcode names (30 R66, R69). -/
def f0Instr (op : BitVec 8) : Option Instr :=
  if op = 0x03#8 then some .render
  else if op = 0x04#8 then some .poll
  else if op = 0x05#8 then some .fires
  else if op = 0x06#8 then some .firef
  else if op = 0x07#8 then some .clrfb
  else if op = 0x08#8 then some .admon
  else if op = 0x09#8 then some .admoff
  else if op = 0x0A#8 then some .chkac
  else none

/-- The operation of a command's fields, in the order of 30 R76. -/
def decodeRaw (r : RawCmd) : Except DecodeError Instr :=
  if r.op = 0x01#8 then
    if r.opd.extractLsb' 5 19 = 0#19 then .ok (.enc (r.opd.getLsbD 4) (r.opd.extractLsb' 0 4))
    else .error (.reservedBits r.op)
  else if r.op = 0x02#8 then
    if r.opd.extractLsb' 16 8 = 0#8 then
      .ok (.slots (r.opd.extractLsb' 0 4) (r.opd.extractLsb' 4 4) (r.opd.extractLsb' 8 4) (r.opd.extractLsb' 12 4))
    else .error (.reservedBits r.op)
  else
    match f0Instr r.op with
    | some i => if r.opd = 0#24 then .ok i else .error (.reservedBits r.op)
    | none => .error (.unknownOpcode r.op)

/-- The operation a command word spells, or why it spells none (30 R76). -/
def decodeWord (w : Word) : Except DecodeError Instr := decodeRaw (rawOf w)

/-- The operation a command word spells, if it spells one (30 R76). -/
def decode (w : Word) : Option Instr := (decodeWord w).toOption

/-- The opcode of an operation (30 R69). -/
def opcode : Instr → BitVec 8
  | .enc _ _ => 0x01#8
  | .slots _ _ _ _ => 0x02#8
  | .render => 0x03#8
  | .poll => 0x04#8
  | .fires => 0x05#8
  | .firef => 0x06#8
  | .clrfb => 0x07#8
  | .admon => 0x08#8
  | .admoff => 0x09#8
  | .chkac => 0x0A#8

/-- The operand field of an operation: formats FE (30 R67), FS (30 R68) and F0 (30 R66). -/
def operand : Instr → BitVec 24
  | .enc f code => 0#19 ++ BitVec.ofBool f ++ code
  | .slots s0 s1 s2 s3 => 0#8 ++ s3 ++ s2 ++ s1 ++ s0
  | .render => 0#24
  | .poll => 0#24
  | .fires => 0#24
  | .firef => 0#24
  | .clrfb => 0#24
  | .admon => 0#24
  | .admoff => 0#24
  | .chkac => 0#24

/-- The command word of an operation (30 R65). -/
def encode (i : Instr) : Word := opcode i ++ operand i

/-- The name of an operation in the opcode map (30 R69). -/
def mnemonic : Instr → String
  | .enc _ _ => "ENC"
  | .slots _ _ _ _ => "SLOTS"
  | .render => "RENDER"
  | .poll => "POLL"
  | .fires => "FIRES"
  | .firef => "FIREF"
  | .clrfb => "CLRFB"
  | .admon => "ADMON"
  | .admoff => "ADMOFF"
  | .chkac => "CHKAC"

/-- The command word whose low `nbits` bits are `w` and whose other bits are 0. -/
def tableWord (nbits w : Nat) : Word := BitVec.ofNat 32 (w % 2 ^ nbits)

/-- What the decoder reads from a word numbered as the opcode table numbers it: a command is one 32-bit word, so the
table's bits are the word's (30 R65, R78). -/
def decodeTableWord (nbits w : Nat) : Option Instr := decode (tableWord nbits w)

end Sys2Proof
end

