-- ==== Sys2Proof/Machine/Fetch.lean ====
section
/-! DEFINITION. Taking a word from the command stream (10 R36, R37) and putting one there. -/

namespace Sys2Proof.Machine

/-- The word the host issues next, if the stream has one: `prog[pc]` (10 R37). -/
def State.fetch (s : State) : Option Word := s.prog[s.pc]?

/-- A stream with the word `w` at index `n`; a stream that ends before `n` is first filled with words of zeros. -/
def putWord (prog : List Word) (n : Nat) (w : Word) : List Word :=
  prog.take n ++ List.replicate (n - prog.length) 0#32 ++ [w] ++ prog.drop (n + 1)

/-- `s` with `w` as the word the host issues next, in a run that no word has stopped (log 15). -/
def State.issue (s : State) (w : Word) : State :=
  { s with prog := putWord s.prog s.pc w, refused := false }

end Sys2Proof.Machine
end

