-- ==== Sys2Proof/Machine/Step.lean ====
section
/-! DEFINITION. One step of the machine (10 R37), and placing the word it fetches next. -/

namespace Sys2Proof.Machine

/-- One step (10 R37): a run stopped by a refused word stays stopped (60 R212, log 13); with no word left the host
issues nothing and the state holds (60 R221, log 14); a word that spells no operation is refused; any other is
performed. -/
def step (s : State) : Host.Outcome State Fault Refusal :=
  if s.refused then .refused .streamRefused
  else
    match s.fetch with
    | none => .next s
    | some w =>
      match decode w with
      | none => .next s.refuse
      | some i => exec i s

/-- `s` with the opcode table's word of `nbits` bits `w` as the word `step` takes next (log 15). -/
def State.withFetchWord (s : State) (nbits w : Nat) : State := s.issue (tableWord nbits w)

end Sys2Proof.Machine
end

