-- ==== Sys2Proof/Machine/Asm.lean ====
section
/-! DEFINITION. Assembly syntax (30 R79) and the pseudo-operations (30 R80): a program as text, its command words, and
the clock samples its annotations record. -/

namespace Sys2Proof.Machine

/-- `BLANK` (30 R80). -/
def asmBlank : List Instr := [.slots 0xF#4 0xF#4 0xF#4 0xF#4]

/-- `EXITADM` (30 R80). -/
def asmExitAdm : List Instr := [.clrfb, .admoff]

/-- `SHOW d…`: the digits left-aligned and the rest blank (30 R80, 60 R226). -/
def asmShow (ds : List Code) : Instr :=
  .slots (ds.getD 0 0xF#4) (ds.getD 1 0xF#4) (ds.getD 2 0xF#4) (ds.getD 3 0xF#4)

/-- The operation samples `now` (10 R41). -/
def timed : Instr → Bool
  | .enc _ _ => false
  | .slots _ _ _ _ => false
  | .render => false
  | .poll => true
  | .fires => true
  | .firef => true
  | .clrfb => false
  | .admon => false
  | .admoff => false
  | .chkac => true

/-- What one line of assembly stands for: operations, and the clock value its `@now` gives (30 R79). -/
structure AsmLine where
  instrs : List Instr
  now : Option Nat
  deriving DecidableEq, Repr

/-- The value of a hexadecimal digit: its place among the sixteen, in either letter case (log 26). -/
def hexVal (ch : Char) : Option Nat :=
  ("0123456789ABCDEF".toList.idxOf? ch).or ("0123456789abcdef".toList.idxOf? ch)

/-- The number a list of digits spells in a base, most significant first. -/
def readDigits (base : Nat) (digits : List Char) : Option Nat :=
  (digits.mapM hexVal).bind fun vals =>
    if vals.all (· < base) then some (vals.foldl (fun n v => base * n + v) 0) else none

/-- A number: hexadecimal after 0x and binary after 0b (00 R9), else decimal. DESIGN CHOICE, log 26: 30 R79 does not say
which of these forms `@now=<value>` may take, and the model reads all three. -/
def readNat : List Char → Option Nat
  | '0' :: 'x' :: c :: cs => readDigits 16 (c :: cs)
  | '0' :: 'b' :: c :: cs => readDigits 2 (c :: cs)
  | c :: cs => readDigits 10 (c :: cs)
  | [] => none

/-- A slot code operand: a digit, `_` for blank, or a hex code 0xA to 0xE (30 R79). -/
def readCode (t : List Char) : Option Code :=
  if t = ['_'] then some 0xF#4
  else
    match t with
    | [c] => (readDigits 10 [c]).map (BitVec.ofNat 4)
    | ['0', 'x', h] => (hexVal h).bind fun v => if 10 ≤ v ∧ v ≤ 14 then some (BitVec.ofNat 4 v) else none
    | _ => none

/-- A line without its comment, cut at blanks and commas. -/
def asmTokens (line : List Char) : List (List Char) :=
  ((line.takeWhile (· ≠ ';')).foldr
    (fun c acc =>
      if c = ' ' ∨ c = ',' ∨ c = '\t' then [] :: acc
      else
        match acc with
        | [] => [[c]]
        | t :: ts => (c :: t) :: ts)
    [[]]).filter (· ≠ [])

/-- The operations without operands, by mnemonic (30 R79). -/
def asmPlain : List (String × Instr) :=
  [("RENDER", .render), ("POLL", .poll), ("FIRES", .fires), ("FIREF", .firef), ("CLRFB", .clrfb), ("ADMON", .admon),
   ("ADMOFF", .admoff), ("CHKAC", .chkac)]

/-- The `@now` annotation, the one token that may follow a timed operation (30 R79). -/
def readNow : List (List Char) → Option (Option Nat)
  | [] => some none
  | [t] => if t.take 5 = "@now=".toList then (readNat (t.drop 5)).map some else none
  | _ => none

/-- One line of assembly from its tokens (30 R79, R80). -/
def asmOfTokens : List (List Char) → Option AsmLine
  | [] => some { instrs := [], now := none }
  | op :: rest =>
    if op = "ENC".toList then
      match rest with
      | [c, f] =>
        (readCode c).bind fun code =>
          if f = ['0'] then some { instrs := [.enc false code], now := none }
          else if f = ['1'] then some { instrs := [.enc true code], now := none }
          else none
      | _ => none
    else if op = "SLOTS".toList then
      match rest.mapM readCode with
      | some [c0, c1, c2, c3] => some { instrs := [.slots c0 c1 c2 c3], now := none }
      | _ => none
    else if op = "BLANK".toList then (if rest = [] then some { instrs := asmBlank, now := none } else none)
    else if op = "EXITADM".toList then (if rest = [] then some { instrs := asmExitAdm, now := none } else none)
    else if op = "SHOW".toList then
      match rest.mapM (readDigits 10) with
      | some ds =>
        if ds.length ≤ 4 ∧ rest.all (·.length = 1) then
          some { instrs := [asmShow (ds.map (BitVec.ofNat 4))], now := none }
        else none
      | none => none
    else
      match asmPlain.find? (fun r => r.1.toList = op) with
      | some (_, i) =>
        if timed i then (readNow rest).map fun t => { instrs := [i], now := t }
        else if rest = [] then some { instrs := [i], now := none } else none
      | none => none

/-- One line of assembly (30 R79). -/
def readAsm (line : String) : Option AsmLine := asmOfTokens (asmTokens line.toList)

/-- The text of a slot code (30 R79). -/
def codeText (c : Code) : String :=
  if c.toNat ≤ 9 then String.ofList [Char.ofNat (0x30 + c.toNat)]
  else if c = 0xF#4 then "_"
  else String.ofList ['0', 'x', Char.ofNat (0x41 + (c.toNat - 10))]

/-- The text of an operation (30 R79). -/
def asmText : Instr → String
  | .enc f code => "ENC " ++ codeText code ++ ", " ++ (if f then "1" else "0")
  | .slots s0 s1 s2 s3 =>
    "SLOTS " ++ codeText s0 ++ ", " ++ codeText s1 ++ ", " ++ codeText s2 ++ ", " ++ codeText s3
  | .render => "RENDER"
  | .poll => "POLL"
  | .fires => "FIRES"
  | .firef => "FIREF"
  | .clrfb => "CLRFB"
  | .admon => "ADMON"
  | .admoff => "ADMOFF"
  | .chkac => "CHKAC"

/-- The clock samples of the timed operations of a program, in order; `n` is the number of the next draw, whose free
value stands in where no annotation gives one (30 R79). -/
def asmClock (n : Nat) : List AsmLine → List Nat
  | [] => []
  | l :: ls =>
    if l.instrs.any timed then l.now.getD (Config.freeClock n) :: asmClock (n + 1) ls else asmClock n ls

/-- `s` with a program loaded as its command stream, from its first word, and its clock samples as annotated. -/
def State.load (s : State) (p : List AsmLine) : State :=
  { s with
    prog := (p.flatMap (·.instrs)).map encode
    pc := 0
    clock := { queue := asmClock s.clock.drawn p, drawn := s.clock.drawn } }

end Sys2Proof.Machine
end

