-- ==== Sys2Proof/Machine/View.lean ====
section
/-! DEFINITION. What is seen of the block: its display (10 R30), the electrical level of its indicators (43 R191), the
levels at every point of a trace (00 R12, 41 R131, 42 R166), and the observation and end of a run (60 R231). -/

namespace Sys2Proof.Machine

/-- Position `p` of the display is enabled: position 0 by `SR_Q[7]`, the others by their enable lines (10 R30). -/
def posEnabled (l : Lines) (q : Byte) (p : Fin 4) : Bool :=
  match p with
  | 0 => q.getLsbD 7
  | 1 => l.en1
  | 2 => l.en2
  | 3 => l.en3

/-- Segment `k` of position `p` is lit: the position is enabled and the segment's bit is 0 (10 R30, 40 R103). -/
def segLit (l : Lines) (q : Byte) (p : Fin 4) (k : Fin 7) : Bool := posEnabled l q p && !q.getLsbD k.val

/-- The display as it stands (10 R30). -/
def State.lit (s : State) (p : Fin 4) (k : Fin 7) : Bool := segLit s.lines s.srq p k

/-- Column `c` is driven active, at level 0 (42 R154). -/
def colActive (l : Lines) (c : Fin 4) : Bool := !l.get (colLine c)

/-- The electrical level of a line that is 0 or `ON_LEVEL` (43 R180, R191). -/
def electrical (p : Params) (level : Bool) : Nat := if level then p.onLevel else 0

/-- The time a trace spends in settle delays (41 R129). -/
def busyWait (p : Params) (t : List Event) : Nat := t.countP (· = .settle) * p.settle

/-- Everything a trace acts on: the line levels and the shift register. `stage` is the register's serial stage, which
no rule of the block reads; it is what `CLK` shifts and `LATCH` takes in the line-level refinement (93 G5, G6,
PRESUMED, log 23). -/
structure Pins where
  lines : Lines
  srq : Byte
  stage : Byte
  deriving DecidableEq, Repr

/-- One rising edge of `CLK`: the serial stage moves up by one bit and takes the level of `DATA` as bit 0. -/
def shiftIn (stage : Byte) (v : Bool) : Byte := stage.extractLsb' 0 7 ++ BitVec.ofBool v

/-- One event acts on the pins: a rising `CLK` shifts `DATA` into the stage at bit 0, a rising `LATCH` copies the stage
to the outputs (41 R130), and a `Shift` is the whole of that (41 R128). -/
def Pins.apply (p : Pins) (e : Event) : Pins :=
  match e with
  | .drive .clk v =>
    { p with
      lines := p.lines.set .clk v
      stage := if v && !p.lines.clk then shiftIn p.stage p.lines.data else p.stage }
  | .drive .latch v =>
    { p with lines := p.lines.set .latch v, srq := if v && !p.lines.latch then p.stage else p.srq }
  | .drive l v => { p with lines := p.lines.set l v }
  | .shift b => { p with srq := b }
  | .sample _ _ => p
  | .settle => p
  | .report _ _ => p

/-- The pins after the events of a trace. -/
def Pins.after (p : Pins) (t : List Event) : Pins := t.foldl Pins.apply p

/-- The pins of a state, with `stage` in the register's serial stage. -/
def State.pinsWith (s : State) (stage : Byte) : Pins := { lines := s.lines, srq := s.srq, stage := stage }

/-- Perform operations one after the other, in order (20 R52). -/
def execAll : List Instr → State → Host.Outcome State Fault Refusal
  | [], s => .next s
  | i :: is, s =>
    match exec i s with
    | .next t => execAll is t
    | .fault r => .fault r
    | .refused r => .refused r

/-- The run has ended successfully: `pc = n` and `REFUSED = 0` (60 R231). -/
def State.succeeded (s : State) : Bool := s.pc == s.prog.length && !s.refused

/-- What is observed of a run that has ended successfully (60 R231, 00 R12): its final state, its whole trace and its
result words. -/
structure Observation where
  final : State
  trace : List Event
  results : List Word
  deriving DecidableEq, Repr

/-- The observation of a run, if it has ended successfully; a refused run has none (60 R231). -/
def State.observe (s : State) : Option Observation :=
  if s.succeeded then some { final := s, trace := s.trace, results := s.results } else none

end Sys2Proof.Machine
end

