-- ==== Sys2Proof/Machine/Controller.lean ====
section
/-! DEFINITION. What the source's host issues to the block (60 R225 to R228). The host is software outside the block
(00 R5), so nothing here is part of the machine: these are premises for claims about the source's controller. -/

namespace Sys2Proof.Machine

/-- The mode of the host's state machine (60 R216, R228). -/
inductive HostMode where
  | normal
  | admin
  deriving DecidableEq, Repr

/-- What the host knows when it handles a key: its mode, how many digits its buffer holds, the buffer after the key,
and whether the buffer equals the code it compares with (60 R228). -/
structure HostView where
  mode : HostMode
  bufLen : Nat
  bufAfter : List Code
  codeOk : Bool
  deriving DecidableEq, Repr

/-- The operations the source's host may issue for a key event (60 R228). Each member of the list is one allowed
sequence: there are two where the source does not settle the point (91 N27, log 25). -/
def hostIssues (v : HostView) : KeyEvent → List (List Instr)
  | .digit _ => if v.bufLen < 4 then [[asmShow v.bufAfter]] else [[]]
  | .delete => [[.clrfb, asmShow v.bufAfter]]
  | .clear => [.clrfb :: asmBlank]
  | .enter =>
    match v.mode with
    | .normal => [[.clrfb, if v.codeOk then .fires else .firef] ++ asmBlank]
    | .admin => [[.clrfb, if v.bufLen ≠ 4 then .firef else .fires] ++ asmBlank]
  | .adminToggle =>
    match v.mode with
    | .admin => [asmExitAdm]
    | .normal => [[.clrfb, if v.codeOk then .admon else .firef] ++ asmBlank]
  | .secondarySet =>
    match v.mode with
    | .admin => if v.bufLen ≠ 4 then [[.clrfb, .firef], [.clrfb, .firef] ++ asmBlank] else [[.clrfb, .fires]]
    | .normal => [[], [.clrfb]]
  | .none => [[]]

/-- One control cycle round the operations that handle the key (60 R225). -/
def controlCycle (handling : List Instr) : List Instr := [.render, .poll] ++ handling ++ [.chkac]

end Sys2Proof.Machine
end

