-- ==== Sys2Proof/Safety.lean ====
section
/-! DEFINITION. The terms claims are made in: invariants of the block, premises a claim may take about its
environment, and closed forms of what RENDER and POLL put on the lines. -/

namespace Sys2Proof.Safety

open Sys2Proof.Machine

/-- `a -_W b` as an integer: `(a - b) mod 2^W` (00 R11). -/
def gap (w a b : Nat) : Int := ((a : Int) - (b : Int)) % ((2 ^ w : Nat) : Int)

/-- A poll now falls in the debounce window (42 R151). -/
def InWindow (s : State) : Prop := gap s.cfg.width s.now s.last < (s.cfg.debounce : Int)

/-- The deadline `d` is due at `t` (43 R187, R188). -/
def DeadlineDue (p : Params) (t d : Nat) : Prop :=
  match p.autoclearCmp with
  | .absolute => d ≤ t
  | .wrapsafe => gap p.width t d < ((2 ^ (p.width - 1) : Nat) : Int)

/-- Each indicator's line is at the indicator's level (43 R180). -/
def IndicatorsMatch (s : State) : Prop :=
  s.lines.succ = s.succ ∧ s.lines.fail = s.fail ∧ s.lines.adm = s.adm

/-- The lines an operation drives and restores are at rest: enables off, columns idle, serial clock low
(41 R126, R130, 42 R166). -/
def LinesIdle (s : State) : Prop :=
  s.lines.en1 = false ∧ s.lines.en2 = false ∧ s.lines.en3 = false ∧ s.lines.clk = false ∧
    ∀ c, colActive s.lines c = false

/-- No position of the display is enabled (10 R30). -/
def Dark (s : State) : Prop := ∀ p, posEnabled s.lines s.srq p = false

/-- The timestamps are `W`-bit values (10 R23, R24). -/
def TimesFit (s : State) : Prop := s.last < 2 ^ s.cfg.width ∧ s.deadline < 2 ^ s.cfg.width

/-- At most one position of the display is enabled (41 R131). -/
def AtMostOneEnabled (l : Lines) (q : Byte) : Prop :=
  ∀ p r, posEnabled l q p = true → posEnabled l q r = true → p = r

/-- At most one column is driven active (42 R166). -/
def AtMostOneActive (l : Lines) : Prop := ∀ c d, colActive l c = true → colActive l d = true → c = d

/-- The ideal matrix law (42 R156): what a sample of column `c` reads when the keys `K`, as (row, column) pairs, are
closed. Where two closed keys share a row it says nothing of that row. A premise, never a rule of the block. -/
def IdealRows (K : List (Fin 4 × Fin 4)) (c : Fin 4) (rows : Rows) : Prop :=
  ∀ r : Fin 4,
    ((r, c) ∉ K → rows.getLsbD r.val = true) ∧
      ((r, c) ∈ K → (∀ c', (r, c') ∈ K → c' = c) → rows.getLsbD r.val = false)

/-- The events of one transfer (41 R128, or its refinement 41 R130). -/
def shiftEvents (p : Params) (b : Byte) : List Event :=
  match p.serial with
  | .byteLevel => [.shift b]
  | .lineLevel => (serialDrives b).map fun d => .drive d.1 d.2

/-- How many of the positions before `p` hold an invalid code: the draws a RENDER has made when it comes to `p`. -/
def invalidBefore (s : State) (p : Fin 4) : Nat := (s.dslot.toList.take p.val).countP isInvalid

/-- The segment byte of position `p` in a RENDER (41 R123, R124; 40 R104 to R106). -/
def posMask (s : State) (p : Fin 4) : Byte :=
  let draw := s.maskAt (invalidBefore s p)
  if isInvalid s.dslot[p] then (if p = 0 then draw else segByte false (maskOf draw))
  else segByte (decide (p = 0)) (if s.dslot[p] = blankCode then blankSeg else seg7 s.dslot[p])

/-- The enable line of a position in 1 to 3 (10 R29). -/
def enLine (p : Fin 4) : Line :=
  match p with
  | 0 => .latch
  | 1 => .en1
  | 2 => .en2
  | 3 => .en3

/-- The report of position `p`, where its code is invalid (41 R133). -/
def posReport (s : State) (p : Fin 4) : List Event :=
  if isInvalid s.dslot[p] then [.report .invalidDigit (.slot p s.dslot[p])] else []

/-- The events of position 0 in a RENDER (41 R123). -/
def firstEvents (s : State) : List Event :=
  posReport s 0 ++ shiftEvents s.cfg (posMask s 0) ++ [.settle] ++
    shiftEvents s.cfg (segByte false (maskOf (posMask s 0)))

/-- The events of position `p` in 1 to 3 in a RENDER (41 R124). -/
def otherEvents (s : State) (p : Fin 4) : List Event :=
  posReport s p ++
    if maskOf (posMask s p) = blankSeg then [.drive (enLine p) false]
    else shiftEvents s.cfg (posMask s p) ++ [.drive (enLine p) true, .settle, .drive (enLine p) false]

/-- The events of a RENDER, in position order (41 R122, R125). -/
def renderEvents (s : State) : List Event :=
  firstEvents s ++ otherEvents s 1 ++ otherEvents s 2 ++ otherEvents s 3

/-- The byte a RENDER transfers last: the highest position in 1 to 3 that is not blank, else position 0's mask
(41 R126). -/
def lastByte (s : State) : Byte :=
  if maskOf (posMask s 3) ≠ blankSeg then posMask s 3
  else if maskOf (posMask s 2) ≠ blankSeg then posMask s 2
  else if maskOf (posMask s 1) ≠ blankSeg then posMask s 1
  else segByte false (maskOf (posMask s 0))

/-- The events of scanning the first `n` columns of a POLL that samples their rows in turn (42 R160). -/
def scanEvents (s : State) (n : Nat) : List Event :=
  ((List.finRange 4).take n).flatMap fun c =>
    [.drive (colLine c) false, .sample c (s.rowsAt c.val), .drive (colLine c) true]

/-- A source after `n` draws. -/
def drawnBy {α : Type} (src : Source α) (n : Nat) : Source α :=
  { queue := src.queue.drop n, drawn := src.drawn + n }

/-- The `HIT` bit of the last result word (30 R72). -/
def lastHit (s : State) : Bool := ((s.results.getLast?).getD 0#32).getLsbD 4

/-- The operation leaves the indicators and the timer to the auto-clear: it is no CLRFB and no fire (43 R192). -/
def LeavesFeedback (i : Instr) : Prop := i ≠ .clrfb ∧ i ≠ .fires ∧ i ≠ .firef

/-- Which clock samples the checks of a list of operations take, where the first sample is number `n` (10 R41). -/
def checkDraws (n : Nat) : List Instr → List Nat
  | [] => []
  | i :: is =>
    let later := checkDraws (if timed i then n + 1 else n) is
    if i = .chkac then n :: later else later

end Sys2Proof.Safety
end

