-- ==== Sys2Proof/Certificates/Slice0/Obligations.lean ====
section
/-! DEFINITION. The statements for the provers. A statement's docstring names the rules it formalises; a statement
about one instruction gives its whole next state, so it is its result, its frame and its completion at once. -/

section

open Sys2Proof Sys2Proof.Machine Sys2Proof.Safety

/-! ## Encoding and decoding (30) -/

/-- Decoding the word of any operation gives the operation back, with every operand. -/
def Obligations.DecodeOfEncode : Prop := ∀ i : Instr, decode (encode i) = some i

/-- A word that spells an operation is that operation's only word. -/
def Obligations.EncodeOfDecode : Prop := ∀ (w : Word) (i : Instr), decode w = some i → encode i = w

/-- 30 R66, R67, R68 and the order of 30 R76: what each word decodes to, by the numbers its fields hold; every other word
spells no operation. -/
def Obligations.DecodeByFields : Prop :=
  ∀ w : Word,
    let op := w.toNat / 2 ^ 24
    let opd := w.toNat % 2 ^ 24
    (op = 1 → opd / 2 ^ 5 = 0 → decode w = some (.enc (decide (opd / 16 % 2 = 1)) (BitVec.ofNat 4 opd))) ∧
    (op = 2 → opd / 2 ^ 16 = 0 →
      decode w = some (.slots (BitVec.ofNat 4 opd) (BitVec.ofNat 4 (opd / 16)) (BitVec.ofNat 4 (opd / 256))
        (BitVec.ofNat 4 (opd / 4096)))) ∧
    (3 ≤ op → op ≤ 10 → opd = 0 →
      decode w = [Instr.render, .poll, .fires, .firef, .clrfb, .admon, .admoff, .chkac][op - 3]?) ∧
    (¬(op = 1 ∧ opd / 2 ^ 5 = 0 ∨ op = 2 ∧ opd / 2 ^ 16 = 0 ∨ 3 ≤ op ∧ op ≤ 10 ∧ opd = 0) → decode w = none)

/-- 30 R66, R67, R68: the value of each operation's command word, field by field. -/
def Obligations.EncodedFields : Prop :=
  (∀ (f : Bool) (code : Code),
    (encode (.enc f code)).toNat = 0x01 * 2 ^ 24 + (if f then 16 else 0) + code.toNat) ∧
  (∀ s0 s1 s2 s3 : Code,
    (encode (.slots s0 s1 s2 s3)).toNat =
      0x02 * 2 ^ 24 + s3.toNat * 2 ^ 12 + s2.toNat * 2 ^ 8 + s1.toNat * 2 ^ 4 + s0.toNat) ∧
  [Instr.render, .poll, .fires, .firef, .clrfb, .admon, .admoff, .chkac].map (fun i => (encode i).toNat) =
    [3, 4, 5, 6, 7, 8, 9, 10].map (· * 2 ^ 24)

/-- Words written out bit by bit from 30 R66 to R69 decode to the operations they stand for. -/
def Obligations.WordsDecode : Prop :=
  decode 0b00000001000000000000000000010010#32 = some (.enc true 2#4) ∧
  decode 0b00000010000000001111111100100001#32 = some (.slots 1#4 2#4 0xF#4 0xF#4) ∧
  decode 0b00000100000000000000000000000000#32 = some .poll ∧
  decode 0b00001010000000000000000000000000#32 = some .chkac ∧
  decode 0b00001010100000000000000000000000#32 = none

/-! ## The command stream (10 section 7, 60) -/

/-- A step runs the decoded operation, and adds nothing to it. -/
def Obligations.StepRunsDecoded : Prop :=
  ∀ (s : State) (w : Word) (i : Instr),
    s.refused = false → s.prog[s.pc]? = some w → decode w = some i → step s = exec i s

/-- 60 R212 with the model's choice of log 13: the refused word is one step, which sets `REFUSED` and nothing else, and
the run stops there: every later step is refused. -/
def Obligations.RefusedWordStopsRun : Prop :=
  ∀ (s : State) (w : Word), s.prog[s.pc]? = some w → decode w = none →
    (s.refused = false → step s = .next { s with refused := true }) ∧
      step { s with refused := true } = .refused .streamRefused

/-- The model's choice of log 14, from 60 R221: with no word left to issue the state holds. -/
def Obligations.StepWithoutWordHolds : Prop :=
  ∀ s : State, s.refused = false → s.prog.length ≤ s.pc → step s = .next s

/-- 60 R210 and 10 R39: every operation completes for every operand and every state, returns one result word and moves
`pc` on by one; no operation touches the stream, the parameters or `REFUSED`. -/
def Obligations.OperationsComplete : Prop :=
  ∀ (i : Instr) (s : State), ∃ (t : State) (r : Word), exec i s = .next t ∧ t.pc = s.pc + 1 ∧
    t.results = s.results ++ [r] ∧ t.prog = s.prog ∧ t.refused = s.refused ∧ t.cfg = s.cfg

/-- 60 R231: a stream of words that all spell operations runs to its successful end, with one result word per word. -/
def Obligations.RunReachesEnd : Prop :=
  ∀ s : State, s.refused = false → s.pc ≤ s.prog.length → (∀ w ∈ s.prog.drop s.pc, (decode w).isSome = true) →
    ∃ t : State, core.run (s.prog.length - s.pc) s = .next t ∧ t.succeeded = true ∧ t.prog = s.prog ∧
      ∃ rs : List Word, rs.length = s.prog.length - s.pc ∧ t.results = s.results ++ rs

/-- 60 R231: a run ends refused at its first word that spells no operation, with the words before it performed. That the
refused word is one step and the steps after it are refused is the model's choice of log 13. -/
def Obligations.RunStopsAtRefusedWord : Prop :=
  ∀ (s : State) (m : Nat) (w : Word), s.refused = false → s.prog[s.pc + m]? = some w → decode w = none →
    (∀ k < m, ∀ v, s.prog[s.pc + k]? = some v → (decode v).isSome = true) →
    ∃ t : State, core.run m s = .next t ∧ t.pc = s.pc + m ∧ t.refused = false ∧
      core.run (m + 1) s = .next { t with refused := true } ∧
      ∀ k, core.run (m + 2 + k) s = .refused .streamRefused

/-! ## Reset (70) -/

/-- 70 R240: the state after reset. The shift register's outputs are a draw: the opaque `Config.srqAtReset`. -/
def Obligations.ResetValues : Prop :=
  State.reset.dslot.toList = [0xF#4, 0xF#4, 0xF#4, 0xF#4] ∧ State.reset.last = 0 ∧ State.reset.deadline = 0 ∧
  State.reset.succ = false ∧ State.reset.fail = false ∧ State.reset.adm = false ∧
  State.reset.srq = Config.srqAtReset ∧
  (∀ p, State.reset.lines.get p = decide (p ∈ [Line.col0, .col1, .col2, .col3])) ∧
  State.reset.refused = false ∧ State.reset.pc = 0

/-- The invariants hold at reset, and the parameters there are well formed: `W`, `DEBOUNCE`, `AUTOCLEAR` and `KEYMAP` by
the defaults of log 3, 4 and 5, and `ON_LEVEL`, which the spec leaves open, by the choice of log 7 that it is not 0. -/
def Obligations.ResetMeetsInvariants : Prop :=
  IndicatorsMatch State.reset ∧ LinesIdle State.reset ∧ TimesFit State.reset ∧
    State.reset.cfg.wellFormed = true

/-- 70 R243: with `LAST = 0`, as after reset, a poll while `now < DEBOUNCE` returns none without scanning. -/
def Obligations.EarlyPollIsDebounced : Prop :=
  ∀ s : State, s.last = 0 → s.now < s.cfg.debounce →
    exec .poll s =
      .next { s with clock := drawnBy s.clock 1, results := s.results ++ [0x0000000F#32], pc := s.pc + 1 }

/-! ## Segment encoder (40) -/

/-- 40 R101: each segment bit of each digit. -/
def Obligations.SegmentBitsOfDigit : Prop :=
  ∀ d : Fin 10,
    let seg := seg7 (BitVec.ofNat 4 d.val)
    (seg.getLsbD 0 = true ↔ d.val ∈ [1, 4]) ∧ (seg.getLsbD 1 = true ↔ d.val ∈ [5, 6]) ∧
    (seg.getLsbD 2 = true ↔ d.val = 2) ∧ (seg.getLsbD 3 = true ↔ d.val ∈ [1, 4, 7]) ∧
    (seg.getLsbD 4 = true ↔ d.val ∉ [0, 2, 6, 8]) ∧ (seg.getLsbD 5 = true ↔ d.val ∈ [1, 2, 3, 7]) ∧
    (seg.getLsbD 6 = true ↔ d.val ∈ [0, 1, 7])

/-- 40 R102: the table, and that no digit is taken for blank. -/
def Obligations.SegmentTable : Prop :=
  (List.range 10).map (fun d => seg7 (BitVec.ofNat 4 d)) =
    [0x40#7, 0x79#7, 0x24#7, 0x30#7, 0x19#7, 0x12#7, 0x02#7, 0x78#7, 0x00#7, 0x10#7] ∧
  ∀ code : Code, code.toNat ≤ 9 → seg7 code ≠ 0x7F#7

/-- 40 R100, R104, R105: ENC of a digit or blank returns the flag in bit 7 over the mask, and changes nothing. -/
def Obligations.EncOfValidCode : Prop :=
  ∀ (f : Bool) (code : Code) (s : State), code.toNat ≤ 9 ∨ code = 0xF#4 →
    ∃ r : Word, r.toNat = (if f then 128 else 0) + (if code = 0xF#4 then 0x7F else (seg7 code).toNat) ∧
      exec (.enc f code) s = .next { s with results := s.results ++ [r], pc := s.pc + 1 }

/-- 40 R106: ENC of an invalid code reports it, returns the drawn byte, with bit 7 forced to 0 where `F = 0`, and
changes nothing else. The draw is the next value of the source `masks`, a free value. -/
def Obligations.EncOfInvalidCode : Prop :=
  ∀ (f : Bool) (code : Code) (s : State), 10 ≤ code.toNat → code.toNat ≤ 14 →
    ∃ r : Word, r.toNat = (if f then (s.maskAt 0).toNat else (s.maskAt 0).toNat % 128) ∧
      exec (.enc f code) s =
        .next { s with
          masks := drawnBy s.masks 1
          trace := s.trace ++ [.report .invalidDigit (.code code)]
          results := s.results ++ [r]
          pc := s.pc + 1 }

/-! ## Display multiplexer (41) -/

/-- 41 R120: SLOTS writes the four cells as given and drives no line; a word of its opcode with a reserved bit set spells
no operation. -/
def Obligations.SlotsWritesCells : Prop :=
  ∀ (s0 s1 s2 s3 : Code) (s : State),
    decode (0x02#8 ++ 0#8 ++ s3 ++ s2 ++ s1 ++ s0) = some (.slots s0 s1 s2 s3) ∧
    exec (.slots s0 s1 s2 s3) s =
      .next { s with dslot := #v[s0, s1, s2, s3], results := s.results ++ [0#32], pc := s.pc + 1 } ∧
    ∀ w : Word, w.toNat / 2 ^ 24 = 2 → w.toNat % 2 ^ 24 / 2 ^ 16 ≠ 0 → decode w = none

/-- 41 R128: a transfer is one event, after which the outputs hold the byte, bit for bit. -/
def Obligations.TransferLatchesByte : Prop :=
  ∀ (s : State) (b : Byte), s.cfg.serial = .byteLevel →
    s.shiftLatch b = { s with srq := b, trace := s.trace ++ [.shift b] } ∧
      ∀ i < 8, (s.shiftLatch b).srq.getLsbD i = b.getLsbD i

/-- 41 R130: the line-level refinement drives `LATCH` low, then for each bit from 7 down `DATA` and a `CLK` pulse, then
`LATCH` high; it leaves `LATCH` 1, `CLK` 0, `DATA = b[0]` and every other line as it was. -/
def Obligations.TransferLineByLine : Prop :=
  ∀ (s : State) (b : Byte), s.cfg.serial = .lineLevel →
    ∃ l : Lines,
      s.shiftLatch b =
        { s with
          srq := b
          lines := l
          trace := s.trace ++ .drive .latch false ::
            ([7, 6, 5, 4, 3, 2, 1, 0].flatMap fun i =>
              [.drive .data (b.getLsbD i), .drive .clk true, .drive .clk false]) ++
            [.drive .latch true] } ∧
      ∀ p, l.get p =
        if p = .latch then true else if p = .clk then false else if p = .data then b.getLsbD 0 else s.lines.get p

/-- 41 R130, with the usual shift register of 93 G5, G6 (log 23): the line-level drives of a byte leave exactly that
byte on the outputs, whatever was in the register, and the outputs keep their old value until the last drive. -/
def Obligations.SerialDrivesReachOutputs : Prop :=
  ∀ (p : Pins) (b : Byte), p.lines.clk = false →
    let drives := (serialDrives b).map fun d => Event.drive d.1 d.2
    (p.after drives).srq = b ∧ ∀ n < drives.length, (p.after (drives.take n)).srq = p.srq

/-- 41 R122, R123, R124: RENDER's events, position by position in the order 0, 1, 2, 3, for any codes, and its result
0. -/
def Obligations.RenderTrace : Prop :=
  ∀ s : State, ∃ t : State, exec .render s = .next t ∧ t.trace = s.trace ++ renderEvents s ∧
    t.results = s.results ++ [0#32]

/-- 41 R126, R127: the whole state after RENDER: enables off, the outputs hold the byte transferred last, and nothing
else is changed but the serial lines in the line-level refinement and the draws of invalid codes. -/
def Obligations.RenderEndState : Prop :=
  ∀ s : State, ∃ l : Lines,
    exec .render s =
      .next { s with
        lines := l
        srq := lastByte s
        masks := drawnBy s.masks (s.dslot.toList.countP isInvalid)
        trace := s.trace ++ renderEvents s
        results := s.results ++ [0#32]
        pc := s.pc + 1 } ∧
    (lastByte s).getLsbD 7 = false ∧
    ∀ p, l.get p =
      match p with
      | .en1 => false
      | .en2 => false
      | .en3 => false
      | .data => if s.cfg.serial = .lineLevel then (lastByte s).getLsbD 0 else s.lines.data
      | .clk => if s.cfg.serial = .lineLevel then false else s.lines.clk
      | .latch => if s.cfg.serial = .lineLevel then true else s.lines.latch
      | q => s.lines.get q

/-- 41 R127: RENDER reads only the slots, the parameters and the draws of invalid codes: from two states that agree on
those it does the same to the trace, the outputs, the enables and the result; and it drives no column and no
indicator and samples nothing. -/
def Obligations.RenderReadsOnlySlots : Prop :=
  ∀ s s' : State, s.dslot = s'.dslot → s.cfg = s'.cfg → s.masks = s'.masks →
    ∃ (t t' : State) (es : List Event) (r : Word), exec .render s = .next t ∧ exec .render s' = .next t' ∧
      t.trace = s.trace ++ es ∧ t'.trace = s'.trace ++ es ∧ t.srq = t'.srq ∧
      t.results = s.results ++ [r] ∧ t'.results = s'.results ++ [r] ∧
      (∀ p ∈ [Line.en1, .en2, .en3], t.lines.get p = t'.lines.get p) ∧
      t.clock = s.clock ∧ t.rows = s.rows ∧
      (∀ v, ∀ p ∈ [Line.col0, .col1, .col2, .col3, .succ, .fail, .adm], Event.drive p v ∉ es) ∧
      ∀ c r, Event.sample c r ∉ es

/-- 41 R131: in a RENDER that begins with no position enabled, at most one position is enabled at any point of its
trace. In the line-level form the outputs are those of the presumed serial stage of log 23, and the serial clock rests
low (an invariant, `LinesIdle`). -/
def Obligations.RenderEnablesOnePosition : Prop :=
  ∀ s : State, Dark s → s.lines.clk = false →
    ∃ (t : State) (es : List Event), exec .render s = .next t ∧ t.trace = s.trace ++ es ∧
      ∀ (stage : Byte) (n : Nat),
        AtMostOneEnabled ((s.pinsWith stage).after (es.take n)).lines ((s.pinsWith stage).after (es.take n)).srq

/-- 41 R131: during a RENDER every position that is not blank is shown: at one of its settle delays exactly the
segments whose mask bit is 0 are lit there; and position 0 is so at its settle delay, blank or not, where its mask has
the enable bit, as every digit and blank has; a drawn mask without it enables nothing. In the line-level form the outputs
are those of the presumed serial stage of log 23, from a serial clock at rest. -/
def Obligations.RenderShowsPositions : Prop :=
  ∀ s : State, s.lines.clk = false →
    ∃ (t : State) (es : List Event), exec .render s = .next t ∧ t.trace = s.trace ++ es ∧
      ∀ (stage : Byte) (p : Fin 4), (p = 0 → (posMask s 0).getLsbD 7 = true) →
        p = 0 ∨ maskOf (posMask s p) ≠ blankSeg →
        ∃ n, es[n]? = some .settle ∧
          ∀ k : Fin 7,
            segLit ((s.pinsWith stage).after (es.take n)).lines ((s.pinsWith stage).after (es.take n)).srq p k =
              !(posMask s p).getLsbD k.val

/-- 41 R133: RENDER reports each invalid slot with its position and code, once, and no other slot; and after position 0's
events no byte it transfers, drawn or not, has the enable bit of position 0, which is never enabled again. In the
line-level form the outputs are those of the presumed serial stage of log 23, from a serial clock at rest. -/
def Obligations.InvalidSlotsReported : Prop :=
  ∀ s : State, ∃ (t : State) (es rest : List Event), exec .render s = .next t ∧ t.trace = s.trace ++ es ∧
    (es.filterMap fun e => match e with
      | .report .invalidDigit (.slot p c) => some (p, c)
      | _ => none) =
      ((List.finRange 4).map fun p => (p, s.dslot[p])).filter (fun x => isInvalid x.2) ∧
    es = firstEvents s ++ rest ∧
    (∀ b, Event.shift b ∈ rest → b.getLsbD 7 = false) ∧
    (s.lines.clk = false →
      ∀ (stage : Byte) (n : Nat),
        posEnabled ((s.pinsWith stage).after (firstEvents s ++ rest.take n)).lines
          ((s.pinsWith stage).after (firstEvents s ++ rest.take n)).srq 0 = false)

/-- 20 R56: with valid codes a second RENDER leaves the lines, the outputs and the slots as the first left them, and
emits the same events again. -/
def Obligations.RenderRepeats : Prop :=
  ∀ s t : State, (∀ p : Fin 4, isInvalid s.dslot[p] = false) → exec .render s = .next t →
    ∃ (u : State) (es : List Event), exec .render t = .next u ∧ u.lines = t.lines ∧ u.srq = t.srq ∧
      u.dslot = s.dslot ∧ t.trace = s.trace ++ es ∧ u.trace = t.trace ++ es

/-- 41 R131, 70 R259: RENDER leaves no position enabled from any state, and from a state with none enabled every step
leaves none enabled. -/
def Obligations.DisplayStaysDark : Prop :=
  (∀ s : State, ∃ t : State, exec .render s = .next t ∧ Dark t) ∧
    ∀ s t : State, Dark s → step s = .next t → Dark t

/-! ## Keypad scanner (42) -/

/-- 42 R151: in the debounce window POLL returns none at once, drives nothing, samples no row and keeps `LAST`. -/
def Obligations.PollInWindow : Prop :=
  ∀ s : State, InWindow s →
    exec .poll s =
      .next { s with clock := drawnBy s.clock 1, results := s.results ++ [0x0000000F#32], pc := s.pc + 1 }

/-- 42 R153, R157: outside the window, when column `c` is the first with an active row and `r` is its lowest, POLL
records the sampled `now`, restores every column it drove, drives no later one and returns the key's event with its
position. -/
def Obligations.PollHit : Prop :=
  ∀ (s : State) (c r : Fin 4), ¬InWindow s → (∀ c' : Fin 4, c' < c → s.rowsAt c'.val = 0b1111#4) →
    (s.rowsAt c.val).getLsbD r.val = false → (∀ r' : Fin 4, r' < r → (s.rowsAt c.val).getLsbD r'.val = true) →
    ∃ l : Lines,
      (∀ p, l.get p = if p ∈ ((List.finRange 4).take (c.val + 1)).map colLine then true else s.lines.get p) ∧
      exec .poll s =
        .next { s with
          last := s.now
          lines := l
          clock := drawnBy s.clock 1
          rows := drawnBy s.rows (c.val + 1)
          trace := s.trace ++ scanEvents s (c.val + 1)
          results := s.results ++ [BitVec.ofNat 32
            (c.val * 128 + r.val * 32 + 16 + (eventCode (charEvent s.cfg.cmdMap s.cfg.keymap[r][c])).toNat)]
          pc := s.pc + 1 }

/-- 42 R159: outside the window, with no active row in any column, POLL drives and restores all four columns, keeps
`LAST` and returns none. -/
def Obligations.PollWithoutKey : Prop :=
  ∀ s : State, ¬InWindow s → (∀ c : Fin 4, s.rowsAt c.val = 0b1111#4) →
    ∃ l : Lines,
      (∀ p, l.get p = if p ∈ [Line.col0, .col1, .col2, .col3] then true else s.lines.get p) ∧
      exec .poll s =
        .next { s with
          lines := l
          clock := drawnBy s.clock 1
          rows := drawnBy s.rows 4
          trace := s.trace ++ scanEvents s 4
          results := s.results ++ [0x0000000F#32]
          pc := s.pc + 1 }

/-- 42 R163: for real times `a` of the last hit and `b` of the poll, the poll scans iff `(b - a) mod 2^W` is at least
`DEBOUNCE`; so a wrap of the clock between them does not matter while `b - a` is below `2^W`. -/
def Obligations.DebounceSurvivesWrap : Prop :=
  ∀ (s : State) (a b : Nat), a ≤ b → s.last = a % 2 ^ s.cfg.width → s.now = b % 2 ^ s.cfg.width →
    ∃ t : State, exec .poll s = .next t ∧
      (t.trace = s.trace ↔ (b - a) % 2 ^ s.cfg.width < s.cfg.debounce) ∧
      (b - a < 2 ^ s.cfg.width → (t.trace = s.trace ↔ b - a < s.cfg.debounce))

/-- 42 R165: of two polls less than `DEBOUNCE` apart, with no poll between them, at most one hits. -/
def Obligations.OneHitPerWindow : Prop :=
  ∀ (s a b c : State) (mid : List Instr), exec .poll s = .next a → Instr.poll ∉ mid → execAll mid a = .next b →
    exec .poll b = .next c → gap s.cfg.width b.now s.now < (s.cfg.debounce : Int) →
    ¬(lastHit a = true ∧ lastHit c = true)

/-- 42 R166: with the columns idle before it, at most one column is active at any point of a POLL, and all are idle
after it. -/
def Obligations.OneColumnActive : Prop :=
  ∀ s : State, (∀ c, colActive s.lines c = false) →
    ∃ (t : State) (es : List Event), exec .poll s = .next t ∧ t.trace = s.trace ++ es ∧
      (∀ c, colActive t.lines c = false) ∧
      ∀ (stage : Byte) (n : Nat), AtMostOneActive ((s.pinsWith stage).after (es.take n)).lines

/-- 42 R153, under the premise of the ideal matrix law (42 R156): of any set of closed keys POLL finds the one with the
lowest column and, there, the lowest row, if no other closed key is in that row. -/
def Obligations.IdealMatrixPoll : Prop :=
  ∀ (s : State) (K : List (Fin 4 × Fin 4)) (r c : Fin 4), ¬InWindow s →
    (∀ c' : Fin 4, IdealRows K c' (s.rowsAt c'.val)) → (r, c) ∈ K → (∀ c', (r, c') ∈ K → c' = c) →
    (∀ r' c', (r', c') ∈ K → c < c' ∨ c = c' ∧ r ≤ r') →
    ∃ t : State, exec .poll s = .next t ∧ t.last = s.now ∧
      t.results = s.results ++ [hitWord c r (keyEvent s.cfg r c)]

/-- 42 R158, 30 R71: digits give their digit, `#` Enter, the other five what `CMD_MAP` says; and the codes of the
events. -/
def Obligations.CharactersDecode : Prop :=
  ∀ m : CmdMap,
    (∀ d : Fin 10, charEvent m (.digit d) = .digit d ∧ (eventCode (.digit d)).toNat = d.val) ∧
    charEvent m .hash = .enter ∧
    [KeyChar.a, .b, .c, .d, .star].map (charEvent m) = [m.a, m.b, m.c, m.d, m.star].map commandEvent ∧
    [Command.delete, .clear, .enter, .adminToggle, .secondarySet, .none].map (fun c => eventCode (commandEvent c)) =
      [0xA#4, 0xB#4, 0xC#4, 0xD#4, 0xE#4, 0xF#4]

/-- 30 R72: the fields of POLL's result word. -/
def Obligations.PollResultLayout : Prop :=
  noHitWord.toNat = 0xF ∧
    ∀ (c r : Fin 4) (e : KeyEvent),
      let w := hitWord c r e
      w.extractLsb' 9 23 = 0#23 ∧ (w.extractLsb' 7 2).toNat = c.val ∧ (w.extractLsb' 5 2).toNat = r.val ∧
        w.getLsbD 4 = true ∧ w.extractLsb' 0 4 = eventCode e

/-! ## Feedback outputs (43) -/

/-- 43 R181: FIRES turns success on and arms the timer for the sampled `now` plus `AUTOCLEAR`; nothing else changes. -/
def Obligations.FiresEffect : Prop :=
  ∀ s : State, decode 0x05000000#32 = some .fires ∧
    exec .fires s =
      .next { s with
        succ := true
        lines := s.lines.set .succ true
        deadline := (s.now + s.cfg.autoclear) % 2 ^ s.cfg.width
        clock := drawnBy s.clock 1
        trace := s.trace ++ [.drive .succ true]
        results := s.results ++ [0#32]
        pc := s.pc + 1 }

/-- 43 R182: FIREF turns failure on and arms the timer; nothing else changes. -/
def Obligations.FirefEffect : Prop :=
  ∀ s : State, decode 0x06000000#32 = some .firef ∧
    exec .firef s =
      .next { s with
        fail := true
        lines := s.lines.set .fail true
        deadline := (s.now + s.cfg.autoclear) % 2 ^ s.cfg.width
        clock := drawnBy s.clock 1
        trace := s.trace ++ [.drive .fail true]
        results := s.results ++ [0#32]
        pc := s.pc + 1 }

/-- 43 R184: CLRFB turns success and failure off, in that order, and disarms the timer; nothing else changes. -/
def Obligations.ClrfbEffect : Prop :=
  ∀ s : State, decode 0x07000000#32 = some .clrfb ∧
    exec .clrfb s =
      .next { s with
        succ := false
        fail := false
        lines := (s.lines.set .succ false).set .fail false
        deadline := 0
        trace := s.trace ++ [.drive .succ false, .drive .fail false]
        results := s.results ++ [0#32]
        pc := s.pc + 1 }

/-- 43 R185: ADMON turns the admin indicator on; nothing else changes. -/
def Obligations.AdmonEffect : Prop :=
  ∀ s : State, decode 0x08000000#32 = some .admon ∧
    exec .admon s =
      .next { s with
        adm := true
        lines := s.lines.set .adm true
        trace := s.trace ++ [.drive .adm true]
        results := s.results ++ [0#32]
        pc := s.pc + 1 }

/-- 43 R186: ADMOFF turns the admin indicator off; nothing else changes. -/
def Obligations.AdmoffEffect : Prop :=
  ∀ s : State, decode 0x09000000#32 = some .admoff ∧
    exec .admoff s =
      .next { s with
        adm := false
        lines := s.lines.set .adm false
        trace := s.trace ++ [.drive .adm false]
        results := s.results ++ [0#32]
        pc := s.pc + 1 }

/-- 43 R187, R188: CHKAC clears success and failure and disarms exactly when the timer is armed and its deadline is due
under the comparison in force; otherwise it samples `now` and changes nothing. -/
def Obligations.ChkacEffect : Prop :=
  ∀ s : State, decode 0x0A000000#32 = some .chkac ∧
    (s.deadline ≠ 0 → DeadlineDue s.cfg s.now s.deadline →
      exec .chkac s =
        .next { s with
          succ := false
          fail := false
          lines := (s.lines.set .succ false).set .fail false
          deadline := 0
          clock := drawnBy s.clock 1
          trace := s.trace ++ [.drive .succ false, .drive .fail false]
          results := s.results ++ [0#32]
          pc := s.pc + 1 }) ∧
    (¬(s.deadline ≠ 0 ∧ DeadlineDue s.cfg s.now s.deadline) →
      exec .chkac s =
        .next { s with clock := drawnBy s.clock 1, results := s.results ++ [0#32], pc := s.pc + 1 })

/-- 10 R29: driving a line sets that line's level and no other's. -/
def Obligations.DriveSetsOneLine : Prop :=
  ∀ (l : Lines) (p q : Line) (v : Bool), (l.set p v).get q = if q = p then v else l.get q

/-- 43 R183: a fire whose deadline sum is `2^W` leaves the timer disarmed, and no number of checks turns the indicator
off. -/
def Obligations.SentinelCollision : Prop :=
  ∀ (s : State) (n : Nat), s.now + s.cfg.autoclear = 2 ^ s.cfg.width →
    (∃ t : State, execAll (.fires :: List.replicate n .chkac) s = .next t ∧ t.deadline = 0 ∧ t.succ = true) ∧
    ∃ t : State, execAll (.firef :: List.replicate n .chkac) s = .next t ∧ t.deadline = 0 ∧ t.fail = true

/-- 43 R189: of all operations only ADMON and ADMOFF write `ADM` or drive its line; CHKAC and CLRFB do not. -/
def Obligations.OnlyAdminOpsWriteAdm : Prop :=
  ∀ (i : Instr) (s : State), i ≠ .admon → i ≠ .admoff →
    ∃ (t : State) (es : List Event), exec i s = .next t ∧ t.adm = s.adm ∧ t.lines.adm = s.lines.adm ∧
      t.trace = s.trace ++ es ∧ ∀ v, Event.drive .adm v ∉ es

/-- 43 R190: after a check that left the timer disarmed, no later check changes anything until the next fire. -/
def Obligations.ClearOncePerArming : Prop :=
  ∀ (s t : State) (mid : List Instr), s.deadline = 0 → Instr.fires ∉ mid → Instr.firef ∉ mid →
    execAll mid s = .next t →
    exec .chkac t =
      .next { t with clock := drawnBy t.clock 1, results := t.results ++ [0#32], pc := t.pc + 1 }

/-- 43 R192, absolute comparison: after a fire at `T` and any operations but CLRFB and fires, the indicator is on iff all
the checks among them were before `T + AUTOCLEAR`, provided `AUTOCLEAR` is not 0, the deadline does not wrap and no
check's clock value is below `T`. -/
def Obligations.AutoClearAbsolute : Prop :=
  ∀ (s : State) (mid : List Instr), s.cfg.autoclearCmp = .absolute → 0 < s.cfg.autoclear →
    s.now + s.cfg.autoclear < 2 ^ s.cfg.width → (∀ i ∈ mid, LeavesFeedback i) →
    (∀ k ∈ checkDraws 1 mid, s.now ≤ s.nowAt k) →
    (∃ t : State, execAll (.fires :: mid) s = .next t ∧
      t.succ = decide (∀ k ∈ checkDraws 1 mid, s.nowAt k < s.now + s.cfg.autoclear)) ∧
    ∃ t : State, execAll (.firef :: mid) s = .next t ∧
      t.fail = decide (∀ k ∈ checkDraws 1 mid, s.nowAt k < s.now + s.cfg.autoclear)

/-- 43 R192, wrap-safe comparison: the same with all times taken from `T` modulo `2^W`, provided the deadline is not 0,
`AUTOCLEAR` is at most `2^(W-1)` and each check comes less than `2^(W-1) + AUTOCLEAR` after `T`. -/
def Obligations.AutoClearWrapsafe : Prop :=
  ∀ (s : State) (mid : List Instr), s.cfg.autoclearCmp = .wrapsafe → 1 ≤ s.cfg.width →
    s.cfg.autoclear ≤ 2 ^ (s.cfg.width - 1) → (s.now + s.cfg.autoclear) % 2 ^ s.cfg.width ≠ 0 →
    (∀ i ∈ mid, LeavesFeedback i) →
    (∀ k ∈ checkDraws 1 mid,
      gap s.cfg.width (s.nowAt k) s.now < ((2 ^ (s.cfg.width - 1) + s.cfg.autoclear : Nat) : Int)) →
    (∃ t : State, execAll (.fires :: mid) s = .next t ∧
      t.succ = decide (∀ k ∈ checkDraws 1 mid, gap s.cfg.width (s.nowAt k) s.now < (s.cfg.autoclear : Int))) ∧
    ∃ t : State, execAll (.firef :: mid) s = .next t ∧
      t.fail = decide (∀ k ∈ checkDraws 1 mid, gap s.cfg.width (s.nowAt k) s.now < (s.cfg.autoclear : Int))

/-- 70 R252: under the absolute comparison a fire whose deadline wraps is cleared by the next check, whatever operations
but CLRFB, fires and checks come between, if the check is at or after the small wrapped deadline, however early that is. -/
def Obligations.WrappedDeadlineClearsEarly : Prop :=
  ∀ (s : State) (mid : List Instr), s.cfg.autoclearCmp = .absolute → s.cfg.autoclear < 2 ^ s.cfg.width →
    2 ^ s.cfg.width < s.now + s.cfg.autoclear → (∀ i ∈ mid, LeavesFeedback i ∧ i ≠ .chkac) →
    (∀ k ∈ checkDraws 1 (mid ++ [.chkac]), s.now + s.cfg.autoclear ≤ s.nowAt k + 2 ^ s.cfg.width) →
    (∃ t : State, execAll (.fires :: mid ++ [.chkac]) s = .next t ∧ t.succ = false ∧ t.deadline = 0) ∧
    ∃ t : State, execAll (.firef :: mid ++ [.chkac]) s = .next t ∧ t.fail = false ∧ t.deadline = 0

/-! ## The machine as a whole -/

/-- 10 R21, the column "written by": which operations may change each element of the state. -/
def Obligations.WritersOfState : Prop :=
  ∀ (i : Instr) (s t : State), exec i s = .next t →
    (t.dslot ≠ s.dslot → ∃ s0 s1 s2 s3, i = .slots s0 s1 s2 s3) ∧ (t.last ≠ s.last → i = .poll) ∧
    (t.deadline ≠ s.deadline → i ∈ [Instr.fires, .firef, .clrfb, .chkac]) ∧
    (t.succ ≠ s.succ → i ∈ [Instr.fires, .clrfb, .chkac]) ∧
    (t.fail ≠ s.fail → i ∈ [Instr.firef, .clrfb, .chkac]) ∧
    (t.adm ≠ s.adm → i ∈ [Instr.admon, .admoff]) ∧ (t.srq ≠ s.srq → i = .render) ∧
    (t.lines ≠ s.lines → ∀ f c s0 s1 s2 s3, i ≠ .enc f c ∧ i ≠ .slots s0 s1 s2 s3)

/-- 10 R33: `LAST` shows only through POLL and `DEADLINE` only through CHKAC: no other operation's results, lines or
trace depend on them. -/
def Obligations.HiddenTimestamps : Prop :=
  ∀ (i : Instr) (s : State) (x : Nat),
    (i ≠ .poll → ∃ t, exec i s = .next t ∧ exec i { s with last := x } = .next { t with last := x }) ∧
    (i ≠ .chkac → ∃ t d, exec i s = .next t ∧ exec i { s with deadline := x } = .next { t with deadline := d })

/-- 43 R194 with 60 R227, R228: under the source's host both indicators are off before any fire it issues. -/
def Obligations.HostClearsBeforeFire : Prop :=
  ∀ (v : HostView) (e : KeyEvent) (seq before after : List Instr) (fire : Instr) (s t : State),
    seq ∈ hostIssues v e → seq = before ++ fire :: after → fire = .fires ∨ fire = .firef →
    execAll before s = .next t → t.succ = false ∧ t.fail = false ∧ t.deadline = 0

/-- 43 R180 as an invariant: every step keeps each indicator's line at the indicator's level. -/
def Obligations.StepKeepsIndicatorLines : Prop :=
  ∀ s t : State, IndicatorsMatch s → step s = .next t → IndicatorsMatch t

/-- 41 R126, R130, 42 R166 as an invariant: every step leaves the enables off, the columns idle and the serial clock
low. -/
def Obligations.StepKeepsLinesIdle : Prop := ∀ s t : State, LinesIdle s → step s = .next t → LinesIdle t

/-- 00 R11 as an invariant: every step keeps the timestamps `W`-bit values. -/
def Obligations.StepKeepsTimestamps : Prop := ∀ s t : State, TimesFit s → step s = .next t → TimesFit t

/-- 10 R35, 20 R62: no step changes the parameters or the command stream. -/
def Obligations.StepKeepsStream : Prop := ∀ s t : State, step s = .next t → t.cfg = s.cfg ∧ t.prog = s.prog

/-- 00 R12: every step only appends to the trace, and what it appends, acted out on the pins, gives exactly the lines
and the shift-register outputs it leaves: the trace says everything that happened on them. In the line-level
form the outputs are those of the presumed serial stage of log 23. -/
def Obligations.TraceReplaysToLines : Prop :=
  ∀ s t : State, s.lines.clk = false → step s = .next t →
    ∃ es : List Event, t.trace = s.trace ++ es ∧
      ∀ stage : Byte, ((s.pinsWith stage).after es).lines = t.lines ∧ ((s.pinsWith stage).after es).srq = t.srq

end
end

