-- ==== Sys2Proof/Laws/Decode.lean ====
section
/-! SUPPORT. The numbers behind a command word: its fields when it is cut, and its value when it is built. -/

namespace Sys2Proof

/-- The fields of a word as numbers (30 R65). -/
theorem rawOf_toNat (w : Word) :
    (rawOf w).op.toNat = w.toNat / 2 ^ 24 ∧ (rawOf w).opd.toNat = w.toNat % 2 ^ 24 := by
  have := w.isLt
  simp [rawOf, BitVec.extractLsb', Nat.shiftRight_eq_div_pow]
  omega

theorem toNat_append_add {m n : Nat} (x : BitVec m) (y : BitVec n) :
    (x ++ y).toNat = x.toNat * 2 ^ n + y.toNat := by
  rw [BitVec.toNat_append, ← Nat.shiftLeft_add_eq_or_of_lt y.isLt, Nat.shiftLeft_eq]

/-- A command word is its opcode over its operand (30 R65). -/
theorem toNat_encode (i : Instr) : (encode i).toNat = (opcode i).toNat * 2 ^ 24 + (operand i).toNat :=
  toNat_append_add (opcode i) (operand i)

/-- The operand of SLOTS as a number (30 R68). -/
theorem toNat_operand_slots (s0 s1 s2 s3 : Code) :
    (operand (.slots s0 s1 s2 s3)).toNat =
      ((s3.toNat * 2 ^ 4 + s2.toNat) * 2 ^ 4 + s1.toNat) * 2 ^ 4 + s0.toNat := by
  refine (toNat_append_add (0#8 ++ s3 ++ s2 ++ s1) s0).trans ?_
  rw [toNat_append_add, toNat_append_add, toNat_append_add]
  simp

end Sys2Proof
end

