-- ==== Sys2Proof/Laws/State.lean ====
section
/-! SUPPORT. What each named update of the state does to each field: one lemma per field per update. -/

namespace Sys2Proof.Machine

variable (s : State)


@[simp] theorem State.pin_cfg (p : Line) (v : Bool) : (s.pin p v).cfg = s.cfg := rfl
@[simp] theorem State.pin_dslot (p : Line) (v : Bool) : (s.pin p v).dslot = s.dslot := rfl
@[simp] theorem State.pin_last (p : Line) (v : Bool) : (s.pin p v).last = s.last := rfl
@[simp] theorem State.pin_deadline (p : Line) (v : Bool) : (s.pin p v).deadline = s.deadline := rfl
@[simp] theorem State.pin_succ (p : Line) (v : Bool) : (s.pin p v).succ = s.succ := rfl
@[simp] theorem State.pin_fail (p : Line) (v : Bool) : (s.pin p v).fail = s.fail := rfl
@[simp] theorem State.pin_adm (p : Line) (v : Bool) : (s.pin p v).adm = s.adm := rfl
@[simp] theorem State.pin_srq (p : Line) (v : Bool) : (s.pin p v).srq = s.srq := rfl
@[simp] theorem State.pin_lines (p : Line) (v : Bool) : (s.pin p v).lines = s.lines.set p v := rfl
@[simp] theorem State.pin_refused (p : Line) (v : Bool) : (s.pin p v).refused = s.refused := rfl
@[simp] theorem State.pin_prog (p : Line) (v : Bool) : (s.pin p v).prog = s.prog := rfl
@[simp] theorem State.pin_pc (p : Line) (v : Bool) : (s.pin p v).pc = s.pc := rfl
@[simp] theorem State.pin_clock (p : Line) (v : Bool) : (s.pin p v).clock = s.clock := rfl
@[simp] theorem State.pin_rows (p : Line) (v : Bool) : (s.pin p v).rows = s.rows := rfl
@[simp] theorem State.pin_masks (p : Line) (v : Bool) : (s.pin p v).masks = s.masks := rfl
@[simp] theorem State.pin_trace (p : Line) (v : Bool) : (s.pin p v).trace = s.trace ++ [.drive p v] := rfl
@[simp] theorem State.pin_results (p : Line) (v : Bool) : (s.pin p v).results = s.results := rfl

@[simp] theorem State.emit_cfg (e : Event) : (s.emit e).cfg = s.cfg := rfl
@[simp] theorem State.emit_dslot (e : Event) : (s.emit e).dslot = s.dslot := rfl
@[simp] theorem State.emit_last (e : Event) : (s.emit e).last = s.last := rfl
@[simp] theorem State.emit_deadline (e : Event) : (s.emit e).deadline = s.deadline := rfl
@[simp] theorem State.emit_succ (e : Event) : (s.emit e).succ = s.succ := rfl
@[simp] theorem State.emit_fail (e : Event) : (s.emit e).fail = s.fail := rfl
@[simp] theorem State.emit_adm (e : Event) : (s.emit e).adm = s.adm := rfl
@[simp] theorem State.emit_srq (e : Event) : (s.emit e).srq = s.srq := rfl
@[simp] theorem State.emit_lines (e : Event) : (s.emit e).lines = s.lines := rfl
@[simp] theorem State.emit_refused (e : Event) : (s.emit e).refused = s.refused := rfl
@[simp] theorem State.emit_prog (e : Event) : (s.emit e).prog = s.prog := rfl
@[simp] theorem State.emit_pc (e : Event) : (s.emit e).pc = s.pc := rfl
@[simp] theorem State.emit_clock (e : Event) : (s.emit e).clock = s.clock := rfl
@[simp] theorem State.emit_rows (e : Event) : (s.emit e).rows = s.rows := rfl
@[simp] theorem State.emit_masks (e : Event) : (s.emit e).masks = s.masks := rfl
@[simp] theorem State.emit_trace (e : Event) : (s.emit e).trace = s.trace ++ [e] := rfl
@[simp] theorem State.emit_results (e : Event) : (s.emit e).results = s.results := rfl

@[simp] theorem State.report_cfg (k : ReportKind) (i : ReportInfo) : (s.report k i).cfg = s.cfg := rfl
@[simp] theorem State.report_dslot (k : ReportKind) (i : ReportInfo) : (s.report k i).dslot = s.dslot := rfl
@[simp] theorem State.report_last (k : ReportKind) (i : ReportInfo) : (s.report k i).last = s.last := rfl
@[simp] theorem State.report_deadline (k : ReportKind) (i : ReportInfo) : (s.report k i).deadline = s.deadline := rfl
@[simp] theorem State.report_succ (k : ReportKind) (i : ReportInfo) : (s.report k i).succ = s.succ := rfl
@[simp] theorem State.report_fail (k : ReportKind) (i : ReportInfo) : (s.report k i).fail = s.fail := rfl
@[simp] theorem State.report_adm (k : ReportKind) (i : ReportInfo) : (s.report k i).adm = s.adm := rfl
@[simp] theorem State.report_srq (k : ReportKind) (i : ReportInfo) : (s.report k i).srq = s.srq := rfl
@[simp] theorem State.report_lines (k : ReportKind) (i : ReportInfo) : (s.report k i).lines = s.lines := rfl
@[simp] theorem State.report_refused (k : ReportKind) (i : ReportInfo) : (s.report k i).refused = s.refused := rfl
@[simp] theorem State.report_prog (k : ReportKind) (i : ReportInfo) : (s.report k i).prog = s.prog := rfl
@[simp] theorem State.report_pc (k : ReportKind) (i : ReportInfo) : (s.report k i).pc = s.pc := rfl
@[simp] theorem State.report_clock (k : ReportKind) (i : ReportInfo) : (s.report k i).clock = s.clock := rfl
@[simp] theorem State.report_rows (k : ReportKind) (i : ReportInfo) : (s.report k i).rows = s.rows := rfl
@[simp] theorem State.report_masks (k : ReportKind) (i : ReportInfo) : (s.report k i).masks = s.masks := rfl
@[simp] theorem State.report_trace (k : ReportKind) (i : ReportInfo) : (s.report k i).trace = s.trace ++ [.report k i] := rfl
@[simp] theorem State.report_results (k : ReportKind) (i : ReportInfo) : (s.report k i).results = s.results := rfl

@[simp] theorem State.settle_cfg : (s.settle).cfg = s.cfg := rfl
@[simp] theorem State.settle_dslot : (s.settle).dslot = s.dslot := rfl
@[simp] theorem State.settle_last : (s.settle).last = s.last := rfl
@[simp] theorem State.settle_deadline : (s.settle).deadline = s.deadline := rfl
@[simp] theorem State.settle_succ : (s.settle).succ = s.succ := rfl
@[simp] theorem State.settle_fail : (s.settle).fail = s.fail := rfl
@[simp] theorem State.settle_adm : (s.settle).adm = s.adm := rfl
@[simp] theorem State.settle_srq : (s.settle).srq = s.srq := rfl
@[simp] theorem State.settle_lines : (s.settle).lines = s.lines := rfl
@[simp] theorem State.settle_refused : (s.settle).refused = s.refused := rfl
@[simp] theorem State.settle_prog : (s.settle).prog = s.prog := rfl
@[simp] theorem State.settle_pc : (s.settle).pc = s.pc := rfl
@[simp] theorem State.settle_clock : (s.settle).clock = s.clock := rfl
@[simp] theorem State.settle_rows : (s.settle).rows = s.rows := rfl
@[simp] theorem State.settle_masks : (s.settle).masks = s.masks := rfl
@[simp] theorem State.settle_trace : (s.settle).trace = s.trace ++ [.settle] := rfl
@[simp] theorem State.settle_results : (s.settle).results = s.results := rfl

@[simp] theorem State.clockDrawn_cfg : (s.clockDrawn).cfg = s.cfg := rfl
@[simp] theorem State.clockDrawn_dslot : (s.clockDrawn).dslot = s.dslot := rfl
@[simp] theorem State.clockDrawn_last : (s.clockDrawn).last = s.last := rfl
@[simp] theorem State.clockDrawn_deadline : (s.clockDrawn).deadline = s.deadline := rfl
@[simp] theorem State.clockDrawn_succ : (s.clockDrawn).succ = s.succ := rfl
@[simp] theorem State.clockDrawn_fail : (s.clockDrawn).fail = s.fail := rfl
@[simp] theorem State.clockDrawn_adm : (s.clockDrawn).adm = s.adm := rfl
@[simp] theorem State.clockDrawn_srq : (s.clockDrawn).srq = s.srq := rfl
@[simp] theorem State.clockDrawn_lines : (s.clockDrawn).lines = s.lines := rfl
@[simp] theorem State.clockDrawn_refused : (s.clockDrawn).refused = s.refused := rfl
@[simp] theorem State.clockDrawn_prog : (s.clockDrawn).prog = s.prog := rfl
@[simp] theorem State.clockDrawn_pc : (s.clockDrawn).pc = s.pc := rfl
@[simp] theorem State.clockDrawn_clock : (s.clockDrawn).clock = s.clock.next := rfl
@[simp] theorem State.clockDrawn_rows : (s.clockDrawn).rows = s.rows := rfl
@[simp] theorem State.clockDrawn_masks : (s.clockDrawn).masks = s.masks := rfl
@[simp] theorem State.clockDrawn_trace : (s.clockDrawn).trace = s.trace := rfl
@[simp] theorem State.clockDrawn_results : (s.clockDrawn).results = s.results := rfl

@[simp] theorem State.maskDrawn_cfg : (s.maskDrawn).cfg = s.cfg := rfl
@[simp] theorem State.maskDrawn_dslot : (s.maskDrawn).dslot = s.dslot := rfl
@[simp] theorem State.maskDrawn_last : (s.maskDrawn).last = s.last := rfl
@[simp] theorem State.maskDrawn_deadline : (s.maskDrawn).deadline = s.deadline := rfl
@[simp] theorem State.maskDrawn_succ : (s.maskDrawn).succ = s.succ := rfl
@[simp] theorem State.maskDrawn_fail : (s.maskDrawn).fail = s.fail := rfl
@[simp] theorem State.maskDrawn_adm : (s.maskDrawn).adm = s.adm := rfl
@[simp] theorem State.maskDrawn_srq : (s.maskDrawn).srq = s.srq := rfl
@[simp] theorem State.maskDrawn_lines : (s.maskDrawn).lines = s.lines := rfl
@[simp] theorem State.maskDrawn_refused : (s.maskDrawn).refused = s.refused := rfl
@[simp] theorem State.maskDrawn_prog : (s.maskDrawn).prog = s.prog := rfl
@[simp] theorem State.maskDrawn_pc : (s.maskDrawn).pc = s.pc := rfl
@[simp] theorem State.maskDrawn_clock : (s.maskDrawn).clock = s.clock := rfl
@[simp] theorem State.maskDrawn_rows : (s.maskDrawn).rows = s.rows := rfl
@[simp] theorem State.maskDrawn_masks : (s.maskDrawn).masks = s.masks.next := rfl
@[simp] theorem State.maskDrawn_trace : (s.maskDrawn).trace = s.trace := rfl
@[simp] theorem State.maskDrawn_results : (s.maskDrawn).results = s.results := rfl

@[simp] theorem State.sampleRows_cfg (c : Fin 4) : (s.sampleRows c).cfg = s.cfg := rfl
@[simp] theorem State.sampleRows_dslot (c : Fin 4) : (s.sampleRows c).dslot = s.dslot := rfl
@[simp] theorem State.sampleRows_last (c : Fin 4) : (s.sampleRows c).last = s.last := rfl
@[simp] theorem State.sampleRows_deadline (c : Fin 4) : (s.sampleRows c).deadline = s.deadline := rfl
@[simp] theorem State.sampleRows_succ (c : Fin 4) : (s.sampleRows c).succ = s.succ := rfl
@[simp] theorem State.sampleRows_fail (c : Fin 4) : (s.sampleRows c).fail = s.fail := rfl
@[simp] theorem State.sampleRows_adm (c : Fin 4) : (s.sampleRows c).adm = s.adm := rfl
@[simp] theorem State.sampleRows_srq (c : Fin 4) : (s.sampleRows c).srq = s.srq := rfl
@[simp] theorem State.sampleRows_lines (c : Fin 4) : (s.sampleRows c).lines = s.lines := rfl
@[simp] theorem State.sampleRows_refused (c : Fin 4) : (s.sampleRows c).refused = s.refused := rfl
@[simp] theorem State.sampleRows_prog (c : Fin 4) : (s.sampleRows c).prog = s.prog := rfl
@[simp] theorem State.sampleRows_pc (c : Fin 4) : (s.sampleRows c).pc = s.pc := rfl
@[simp] theorem State.sampleRows_clock (c : Fin 4) : (s.sampleRows c).clock = s.clock := rfl
@[simp] theorem State.sampleRows_rows (c : Fin 4) : (s.sampleRows c).rows = s.rows.next := rfl
@[simp] theorem State.sampleRows_masks (c : Fin 4) : (s.sampleRows c).masks = s.masks := rfl
@[simp] theorem State.sampleRows_trace (c : Fin 4) : (s.sampleRows c).trace = s.trace ++ [.sample c (s.rowsAt 0)] := rfl
@[simp] theorem State.sampleRows_results (c : Fin 4) : (s.sampleRows c).results = s.results := rfl

@[simp] theorem State.finish_cfg (r : Word) : (s.finish r).cfg = s.cfg := rfl
@[simp] theorem State.finish_dslot (r : Word) : (s.finish r).dslot = s.dslot := rfl
@[simp] theorem State.finish_last (r : Word) : (s.finish r).last = s.last := rfl
@[simp] theorem State.finish_deadline (r : Word) : (s.finish r).deadline = s.deadline := rfl
@[simp] theorem State.finish_succ (r : Word) : (s.finish r).succ = s.succ := rfl
@[simp] theorem State.finish_fail (r : Word) : (s.finish r).fail = s.fail := rfl
@[simp] theorem State.finish_adm (r : Word) : (s.finish r).adm = s.adm := rfl
@[simp] theorem State.finish_srq (r : Word) : (s.finish r).srq = s.srq := rfl
@[simp] theorem State.finish_lines (r : Word) : (s.finish r).lines = s.lines := rfl
@[simp] theorem State.finish_refused (r : Word) : (s.finish r).refused = s.refused := rfl
@[simp] theorem State.finish_prog (r : Word) : (s.finish r).prog = s.prog := rfl
@[simp] theorem State.finish_pc (r : Word) : (s.finish r).pc = s.pc + 1 := rfl
@[simp] theorem State.finish_clock (r : Word) : (s.finish r).clock = s.clock := rfl
@[simp] theorem State.finish_rows (r : Word) : (s.finish r).rows = s.rows := rfl
@[simp] theorem State.finish_masks (r : Word) : (s.finish r).masks = s.masks := rfl
@[simp] theorem State.finish_trace (r : Word) : (s.finish r).trace = s.trace := rfl
@[simp] theorem State.finish_results (r : Word) : (s.finish r).results = s.results ++ [r] := rfl

@[simp] theorem State.refuse_cfg : (s.refuse).cfg = s.cfg := rfl
@[simp] theorem State.refuse_dslot : (s.refuse).dslot = s.dslot := rfl
@[simp] theorem State.refuse_last : (s.refuse).last = s.last := rfl
@[simp] theorem State.refuse_deadline : (s.refuse).deadline = s.deadline := rfl
@[simp] theorem State.refuse_succ : (s.refuse).succ = s.succ := rfl
@[simp] theorem State.refuse_fail : (s.refuse).fail = s.fail := rfl
@[simp] theorem State.refuse_adm : (s.refuse).adm = s.adm := rfl
@[simp] theorem State.refuse_srq : (s.refuse).srq = s.srq := rfl
@[simp] theorem State.refuse_lines : (s.refuse).lines = s.lines := rfl
@[simp] theorem State.refuse_refused : (s.refuse).refused = true := rfl
@[simp] theorem State.refuse_prog : (s.refuse).prog = s.prog := rfl
@[simp] theorem State.refuse_pc : (s.refuse).pc = s.pc := rfl
@[simp] theorem State.refuse_clock : (s.refuse).clock = s.clock := rfl
@[simp] theorem State.refuse_rows : (s.refuse).rows = s.rows := rfl
@[simp] theorem State.refuse_masks : (s.refuse).masks = s.masks := rfl
@[simp] theorem State.refuse_trace : (s.refuse).trace = s.trace := rfl
@[simp] theorem State.refuse_results : (s.refuse).results = s.results := rfl

@[simp] theorem State.arm_cfg (t : Nat) : (s.arm t).cfg = s.cfg := rfl
@[simp] theorem State.arm_dslot (t : Nat) : (s.arm t).dslot = s.dslot := rfl
@[simp] theorem State.arm_last (t : Nat) : (s.arm t).last = s.last := rfl
@[simp] theorem State.arm_deadline (t : Nat) : (s.arm t).deadline = wrapAdd s.cfg.width t s.cfg.autoclear := rfl
@[simp] theorem State.arm_succ (t : Nat) : (s.arm t).succ = s.succ := rfl
@[simp] theorem State.arm_fail (t : Nat) : (s.arm t).fail = s.fail := rfl
@[simp] theorem State.arm_adm (t : Nat) : (s.arm t).adm = s.adm := rfl
@[simp] theorem State.arm_srq (t : Nat) : (s.arm t).srq = s.srq := rfl
@[simp] theorem State.arm_lines (t : Nat) : (s.arm t).lines = s.lines := rfl
@[simp] theorem State.arm_refused (t : Nat) : (s.arm t).refused = s.refused := rfl
@[simp] theorem State.arm_prog (t : Nat) : (s.arm t).prog = s.prog := rfl
@[simp] theorem State.arm_pc (t : Nat) : (s.arm t).pc = s.pc := rfl
@[simp] theorem State.arm_clock (t : Nat) : (s.arm t).clock = s.clock := rfl
@[simp] theorem State.arm_rows (t : Nat) : (s.arm t).rows = s.rows := rfl
@[simp] theorem State.arm_masks (t : Nat) : (s.arm t).masks = s.masks := rfl
@[simp] theorem State.arm_trace (t : Nat) : (s.arm t).trace = s.trace := rfl
@[simp] theorem State.arm_results (t : Nat) : (s.arm t).results = s.results := rfl

@[simp] theorem State.disarm_cfg : (s.disarm).cfg = s.cfg := rfl
@[simp] theorem State.disarm_dslot : (s.disarm).dslot = s.dslot := rfl
@[simp] theorem State.disarm_last : (s.disarm).last = s.last := rfl
@[simp] theorem State.disarm_deadline : (s.disarm).deadline = 0 := rfl
@[simp] theorem State.disarm_succ : (s.disarm).succ = s.succ := rfl
@[simp] theorem State.disarm_fail : (s.disarm).fail = s.fail := rfl
@[simp] theorem State.disarm_adm : (s.disarm).adm = s.adm := rfl
@[simp] theorem State.disarm_srq : (s.disarm).srq = s.srq := rfl
@[simp] theorem State.disarm_lines : (s.disarm).lines = s.lines := rfl
@[simp] theorem State.disarm_refused : (s.disarm).refused = s.refused := rfl
@[simp] theorem State.disarm_prog : (s.disarm).prog = s.prog := rfl
@[simp] theorem State.disarm_pc : (s.disarm).pc = s.pc := rfl
@[simp] theorem State.disarm_clock : (s.disarm).clock = s.clock := rfl
@[simp] theorem State.disarm_rows : (s.disarm).rows = s.rows := rfl
@[simp] theorem State.disarm_masks : (s.disarm).masks = s.masks := rfl
@[simp] theorem State.disarm_trace : (s.disarm).trace = s.trace := rfl
@[simp] theorem State.disarm_results : (s.disarm).results = s.results := rfl

@[simp] theorem State.setSucc_cfg (v : Bool) : (s.setSucc v).cfg = s.cfg := rfl
@[simp] theorem State.setSucc_dslot (v : Bool) : (s.setSucc v).dslot = s.dslot := rfl
@[simp] theorem State.setSucc_last (v : Bool) : (s.setSucc v).last = s.last := rfl
@[simp] theorem State.setSucc_deadline (v : Bool) : (s.setSucc v).deadline = s.deadline := rfl
@[simp] theorem State.setSucc_succ (v : Bool) : (s.setSucc v).succ = v := rfl
@[simp] theorem State.setSucc_fail (v : Bool) : (s.setSucc v).fail = s.fail := rfl
@[simp] theorem State.setSucc_adm (v : Bool) : (s.setSucc v).adm = s.adm := rfl
@[simp] theorem State.setSucc_srq (v : Bool) : (s.setSucc v).srq = s.srq := rfl
@[simp] theorem State.setSucc_lines (v : Bool) : (s.setSucc v).lines = s.lines.set .succ v := rfl
@[simp] theorem State.setSucc_refused (v : Bool) : (s.setSucc v).refused = s.refused := rfl
@[simp] theorem State.setSucc_prog (v : Bool) : (s.setSucc v).prog = s.prog := rfl
@[simp] theorem State.setSucc_pc (v : Bool) : (s.setSucc v).pc = s.pc := rfl
@[simp] theorem State.setSucc_clock (v : Bool) : (s.setSucc v).clock = s.clock := rfl
@[simp] theorem State.setSucc_rows (v : Bool) : (s.setSucc v).rows = s.rows := rfl
@[simp] theorem State.setSucc_masks (v : Bool) : (s.setSucc v).masks = s.masks := rfl
@[simp] theorem State.setSucc_trace (v : Bool) : (s.setSucc v).trace = s.trace ++ [.drive .succ v] := rfl
@[simp] theorem State.setSucc_results (v : Bool) : (s.setSucc v).results = s.results := rfl

@[simp] theorem State.setFail_cfg (v : Bool) : (s.setFail v).cfg = s.cfg := rfl
@[simp] theorem State.setFail_dslot (v : Bool) : (s.setFail v).dslot = s.dslot := rfl
@[simp] theorem State.setFail_last (v : Bool) : (s.setFail v).last = s.last := rfl
@[simp] theorem State.setFail_deadline (v : Bool) : (s.setFail v).deadline = s.deadline := rfl
@[simp] theorem State.setFail_succ (v : Bool) : (s.setFail v).succ = s.succ := rfl
@[simp] theorem State.setFail_fail (v : Bool) : (s.setFail v).fail = v := rfl
@[simp] theorem State.setFail_adm (v : Bool) : (s.setFail v).adm = s.adm := rfl
@[simp] theorem State.setFail_srq (v : Bool) : (s.setFail v).srq = s.srq := rfl
@[simp] theorem State.setFail_lines (v : Bool) : (s.setFail v).lines = s.lines.set .fail v := rfl
@[simp] theorem State.setFail_refused (v : Bool) : (s.setFail v).refused = s.refused := rfl
@[simp] theorem State.setFail_prog (v : Bool) : (s.setFail v).prog = s.prog := rfl
@[simp] theorem State.setFail_pc (v : Bool) : (s.setFail v).pc = s.pc := rfl
@[simp] theorem State.setFail_clock (v : Bool) : (s.setFail v).clock = s.clock := rfl
@[simp] theorem State.setFail_rows (v : Bool) : (s.setFail v).rows = s.rows := rfl
@[simp] theorem State.setFail_masks (v : Bool) : (s.setFail v).masks = s.masks := rfl
@[simp] theorem State.setFail_trace (v : Bool) : (s.setFail v).trace = s.trace ++ [.drive .fail v] := rfl
@[simp] theorem State.setFail_results (v : Bool) : (s.setFail v).results = s.results := rfl

@[simp] theorem State.setAdm_cfg (v : Bool) : (s.setAdm v).cfg = s.cfg := rfl
@[simp] theorem State.setAdm_dslot (v : Bool) : (s.setAdm v).dslot = s.dslot := rfl
@[simp] theorem State.setAdm_last (v : Bool) : (s.setAdm v).last = s.last := rfl
@[simp] theorem State.setAdm_deadline (v : Bool) : (s.setAdm v).deadline = s.deadline := rfl
@[simp] theorem State.setAdm_succ (v : Bool) : (s.setAdm v).succ = s.succ := rfl
@[simp] theorem State.setAdm_fail (v : Bool) : (s.setAdm v).fail = s.fail := rfl
@[simp] theorem State.setAdm_adm (v : Bool) : (s.setAdm v).adm = v := rfl
@[simp] theorem State.setAdm_srq (v : Bool) : (s.setAdm v).srq = s.srq := rfl
@[simp] theorem State.setAdm_lines (v : Bool) : (s.setAdm v).lines = s.lines.set .adm v := rfl
@[simp] theorem State.setAdm_refused (v : Bool) : (s.setAdm v).refused = s.refused := rfl
@[simp] theorem State.setAdm_prog (v : Bool) : (s.setAdm v).prog = s.prog := rfl
@[simp] theorem State.setAdm_pc (v : Bool) : (s.setAdm v).pc = s.pc := rfl
@[simp] theorem State.setAdm_clock (v : Bool) : (s.setAdm v).clock = s.clock := rfl
@[simp] theorem State.setAdm_rows (v : Bool) : (s.setAdm v).rows = s.rows := rfl
@[simp] theorem State.setAdm_masks (v : Bool) : (s.setAdm v).masks = s.masks := rfl
@[simp] theorem State.setAdm_trace (v : Bool) : (s.setAdm v).trace = s.trace ++ [.drive .adm v] := rfl
@[simp] theorem State.setAdm_results (v : Bool) : (s.setAdm v).results = s.results := rfl

end Sys2Proof.Machine
end

