-- ==== Sys2Proof/Laws/Ops.lean ====
section
/-! SUPPORT. What each shared operation does, said once: line levels, sources, transfers. -/

namespace Sys2Proof.Machine

open Sys2Proof.Safety

/-! ### Lines -/

@[simp] theorem Lines.get_set (l : Lines) (p q : Line) (v : Bool) :
    (l.set p v).get q = if q = p then v else l.get q := by
  cases p <;> cases q <;> rfl

/-- Lines are known by their levels. -/
theorem Lines.ext_get {l m : Lines} (h : ∀ p, l.get p = m.get p) : l = m := by
  cases l; cases m
  simp only [Lines.mk.injEq]
  exact ⟨h .data, h .clk, h .latch, h .en1, h .en2, h .en3, h .col0, h .col1, h .col2, h .col3, h .succ, h .fail,
    h .adm⟩

@[simp] theorem posEnabled_set_of_ne (l : Lines) (q : Byte) (p : Line) (v : Bool) (k : Fin 4)
    (h : p ≠ .en1 ∧ p ≠ .en2 ∧ p ≠ .en3) : posEnabled (l.set p v) q k = posEnabled l q k := by
  cases p <;> simp_all <;> rfl

theorem colLine_injective {c d : Fin 4} (h : colLine c = colLine d) : c = d := by
  revert c d; decide

theorem colLine_mem (c : Fin 4) : colLine c ∈ [Line.col0, .col1, .col2, .col3] := by
  revert c; decide

/-! ### Sources -/

@[simp] theorem Source.at_next {α : Type} (free : Nat → α) (src : Source α) (k : Nat) :
    src.next.at free k = src.at free (k + 1) := by
  simp [Source.at, Source.next, Nat.add_comm, Nat.add_left_comm]

@[simp] theorem Source.at_drawnBy {α : Type} (free : Nat → α) (src : Source α) (n k : Nat) :
    (drawnBy src n).at free k = src.at free (n + k) := by
  simp [Source.at, drawnBy, Nat.add_assoc]

theorem Source.next_eq {α : Type} (src : Source α) : src.next = drawnBy src 1 := by
  simp [Source.next, drawnBy]

@[simp] theorem drawnBy_zero {α : Type} (src : Source α) : drawnBy src 0 = src := by simp [drawnBy]

@[simp] theorem drawnBy_drawnBy {α : Type} (src : Source α) (m n : Nat) :
    drawnBy (drawnBy src m) n = drawnBy src (m + n) := by
  simp [drawnBy, Nat.add_assoc]

/-! ### Transfers -/

/-- The lines after a list of drives. -/
def drivenLines (l : Lines) (ds : List (Line × Bool)) : Lines := ds.foldl (fun m d => m.set d.1 d.2) l

/-- The line levels one transfer leaves (41 R128, R130). -/
def transferLines (p : Params) (l : Lines) (b : Byte) : Lines :=
  match p.serial with
  | .byteLevel => l
  | .lineLevel => ((l.set .data (b.getLsbD 0)).set .clk false).set .latch true

/-- Driving a list of lines: their levels and their events, in order, and nothing else. -/
theorem State.pins_eq (ds : List (Line × Bool)) (s : State) :
    s.pins ds = { s with lines := drivenLines s.lines ds, trace := s.trace ++ ds.map fun d => .drive d.1 d.2 } := by
  induction ds generalizing s with
  | nil => simp [State.pins, drivenLines]
  | cons d ds ih => simp [State.pins, ih, drivenLines, State.pin]

theorem drivenLines_serialDrives (l : Lines) (b : Byte) :
    drivenLines l (serialDrives b) = ((l.set .data (b.getLsbD 0)).set .clk false).set .latch true := by
  cases l; rfl

/-- A transfer: the byte on the outputs, its events in the trace, the serial lines where they are traced. -/
theorem State.shiftLatch_eq (s : State) (b : Byte) :
    s.shiftLatch b =
      { s with
        srq := b
        lines := transferLines s.cfg s.lines b
        trace := s.trace ++ shiftEvents s.cfg b } := by
  unfold State.shiftLatch transferLines shiftEvents
  cases s.cfg.serial
  · rfl
  · simp [State.pins_eq, drivenLines_serialDrives]

theorem getLsbD_shiftIn (st : Byte) (v : Bool) (i : Nat) :
    (shiftIn st v).getLsbD i = if i = 0 then v else (decide (i < 8) && st.getLsbD (i - 1)) := by
  refine (BitVec.getLsbD_append (x := st.extractLsb' 0 7) (y := BitVec.ofBool v) (i := i)).trans ?_
  rcases i with _ | i
  · simp
  · by_cases h : i < 7 <;> simp [h] <;> intros <;> omega

/-- Eight bits shifted in, most significant first, are the byte. -/
theorem shiftIn_byte (x b : Byte) :
    [7, 6, 5, 4, 3, 2, 1, 0].foldl (fun st i => shiftIn st (b.getLsbD i)) x = b := by
  apply BitVec.eq_of_getLsbD_eq
  intro i hi
  simp only [List.foldl_cons, List.foldl_nil, getLsbD_shiftIn]
  interval_cases i <;> simp

/-- The drives of a byte, acted out on the usual register, leave the byte on its outputs (41 R130). -/
theorem after_serialDrives (p : Pins) (b : Byte) (h : p.lines.clk = false) :
    p.after ((serialDrives b).map fun d => Event.drive d.1 d.2) =
      { lines := ((p.lines.set .data (b.getLsbD 0)).set .clk false).set .latch true, srq := b, stage := b } := by
  obtain ⟨⟨d, c, l, e1, e2, e3, c0, c1, c2, c3, su, fa, ad⟩, q, st⟩ := p
  simp only at h
  subst h
  have hb := shiftIn_byte st b
  simp only [List.foldl_cons, List.foldl_nil] at hb
  simp only [serialDrives, Pins.after, Pins.apply, Lines.set, List.flatMap_cons, List.flatMap_nil,
    List.map_cons, List.map_nil, List.cons_append, List.nil_append, List.append_nil, List.foldl_cons, List.foldl_nil,
    Bool.not_false, Bool.not_true, Bool.and_true, Bool.false_and, if_true, Bool.false_eq_true, if_false,
    hb]

end Sys2Proof.Machine
end

