-- ==== Sys2Proof/Laws/Display.lean ====
section
/-! SUPPORT. The segment encoder and RENDER: what one encoding leaves behind, and the state after each position. -/

namespace Sys2Proof.Machine

open Sys2Proof.Safety

theorem getLsbD_segByte (f : Bool) (seg : BitVec 7) (i : Nat) :
    (segByte f seg).getLsbD i = if i < 7 then seg.getLsbD i else (decide (i = 7) && f) := by
  refine (BitVec.getLsbD_append (x := BitVec.ofBool f) (y := seg) (i := i)).trans ?_
  by_cases h : i < 7
  · simp [h]
  · simp only [h, if_false, BitVec.getLsbD_ofBool]
    congr 1
    simp only [decide_eq_decide]
    omega

theorem toNat_segByte (f : Bool) (seg : BitVec 7) :
    (segByte f seg).toNat = (if f then 128 else 0) + seg.toNat := by
  have h := BitVec.toNat_append (BitVec.ofBool f) seg
  have hs : seg.toNat < 2 ^ 7 := seg.isLt
  show (BitVec.ofBool f ++ seg).toNat = _
  rw [h, ← Nat.shiftLeft_add_eq_or_of_lt hs]
  cases f <;> simp

@[simp] theorem maskOf_segByte (f : Bool) (seg : BitVec 7) : maskOf (segByte f seg) = seg := by
  apply BitVec.eq_of_getLsbD_eq
  intro i hi
  have := getLsbD_segByte f seg i
  simp only [hi, if_true] at this
  rw [maskOf, BitVec.getLsbD_extractLsb']
  simp only [hi, decide_true, Bool.true_and, Nat.zero_add]
  exact this

theorem getLsbD_maskOf (b : Byte) (i : Nat) : (maskOf b).getLsbD i = (decide (i < 7) && b.getLsbD i) := by
  simp [maskOf]

theorem getLsbD_segByte_seven (f : Bool) (seg : BitVec 7) : (segByte f seg).getLsbD 7 = f := by
  rw [getLsbD_segByte]
  simp

/-- Clearing the enable bit leaves the segment bits (41 R123). -/
theorem getLsbD_segByte_maskOf (f : Bool) (b : Byte) (i : Nat) (h : i < 7) :
    (segByte f (maskOf b)).getLsbD i = b.getLsbD i := by
  rw [getLsbD_segByte, if_pos h, getLsbD_maskOf]
  simp [h]

/-- No byte of positions 1 to 3 has the enable bit of position 0 (41 R133). -/
theorem posMask_seven (s : State) (p : Fin 4) (hp : p ≠ 0) : (posMask s p).getLsbD 7 = false := by
  unfold posMask
  simp only [hp, if_false, decide_false]
  split <;> exact getLsbD_segByte_seven _ _

theorem lastByte_seven (s : State) : (lastByte s).getLsbD 7 = false := by
  unfold lastByte
  split
  · exact posMask_seven s 3 (by decide)
  split
  · exact posMask_seven s 2 (by decide)
  split
  · exact posMask_seven s 1 (by decide)
  · exact getLsbD_segByte_seven _ _

theorem isInvalid_iff (code : Code) : isInvalid code = true ↔ 10 ≤ code.toNat ∧ code.toNat ≤ 14 := by
  have h : code.toNat < 16 := code.isLt
  have h2 : code = 0xF#4 ↔ code.toNat = 15 := by
    rw [BitVec.toNat_eq]; rfl
  simp only [isInvalid, isDigit, blankCode, Bool.and_eq_true, Bool.not_eq_true', decide_eq_false_iff_not, bne_iff_ne,
    ne_eq, h2]
  omega

theorem isInvalid_eq_false_iff (code : Code) : isInvalid code = false ↔ code.toNat ≤ 9 ∨ code = 0xF#4 := by
  have h : code.toNat < 16 := code.isLt
  have h2 : code = 0xF#4 ↔ code.toNat = 15 := by
    rw [BitVec.toNat_eq]; rfl
  rw [← Bool.not_eq_true, isInvalid_iff, h2]
  omega

/-- The encoder's byte in one form: the drawn mask for an invalid code, else the flag over the code's mask. -/
theorem segEncode_eq (s : State) (f : Bool) (code : Code) :
    segEncode s f code =
      if isInvalid code then (if f then s.maskAt 0 else segByte false (maskOf (s.maskAt 0)))
      else segByte f (if code = blankCode then blankSeg else seg7 code) := by
  unfold segEncode isInvalid
  by_cases h1 : isDigit code = true
  · have : code ≠ blankCode := by rintro rfl; revert h1; decide
    simp [h1, this]
  · by_cases h2 : code = blankCode
    · subst h2; simp [h1]
    · simp [h1, h2]

/-- What an encoding leaves: a report and a draw where the code is invalid, nothing else. -/
theorem segEncoded_eq (s : State) (code : Code) (info : ReportInfo) :
    segEncoded s code info =
      { s with
        masks := drawnBy s.masks (if isInvalid code then 1 else 0)
        trace := s.trace ++ if isInvalid code then [.report .invalidDigit info] else [] } := by
  unfold segEncoded
  cases isInvalid code
  · simp
  · simp [State.maskDrawn, State.report, State.emit, Source.next_eq]

/-! ### The positions of a RENDER -/

/-- In a state that has drawn the masks of the positions before `p`, encoding position `p` gives `posMask`. -/
theorem segEncode_posMask {s s' : State} {p : Fin 4} (hm : s'.masks = drawnBy s.masks (invalidBefore s p)) :
    segEncode s' (decide (p = 0)) s.dslot[p] = posMask s p := by
  rw [segEncode_eq, posMask]
  have h0 : s'.maskAt 0 = s.maskAt (invalidBefore s p) := by simp [State.maskAt, hm]
  simp [h0]

/-- How many draws position `p` makes. -/
def drawsAt (s : State) (p : Fin 4) : Nat := if isInvalid s.dslot[p] then 1 else 0

/-- The line levels position `p` in 1 to 3 leaves. -/
def otherLines (s : State) (p : Fin 4) (l : Lines) : Lines :=
  if maskOf (posMask s p) = blankSeg then l.set (enLine p) false
  else ((transferLines s.cfg l (posMask s p)).set (enLine p) true).set (enLine p) false

theorem renderFirst_eq (s : State) :
    renderFirst s =
      { s with
        masks := drawnBy s.masks (drawsAt s 0)
        lines := transferLines s.cfg (transferLines s.cfg s.lines (posMask s 0)) (segByte false (maskOf (posMask s 0)))
        srq := segByte false (maskOf (posMask s 0))
        trace := s.trace ++ firstEvents s } := by
  have hm : segEncode s true s.dslot[(0 : Fin 4)] = posMask s 0 :=
    segEncode_posMask (s' := s) (p := 0) (by simp [invalidBefore])
  have hd : s.dslot[(0 : Fin 4)] = s.dslot[0] := rfl
  rw [hd] at hm
  simp only [renderFirst, segEncoded_eq, State.shiftLatch_eq, State.settle, State.emit, hm]
  simp [drawsAt, firstEvents, posReport, hd]

/-- Position `p` in 1 to 3, in a state that the positions before it have left. -/
theorem renderOther_eq (s s' : State) (p : Fin 4) (hp : p ≠ 0) (hc : s'.cfg = s.cfg) (hd : s'.dslot = s.dslot)
    (hm : s'.masks = drawnBy s.masks (invalidBefore s p)) :
    renderOther p (enLine p) s' =
      { s' with
        masks := drawnBy s.masks (invalidBefore s p + drawsAt s p)
        lines := otherLines s p s'.lines
        srq := if maskOf (posMask s p) = blankSeg then s'.srq else posMask s p
        trace := s'.trace ++ otherEvents s p } := by
  have hk := segEncode_posMask (s := s) (s' := s') (p := p) hm
  simp only [hp, decide_false] at hk
  unfold renderOther
  simp only [hd, hk, segEncoded_eq, hm, drawnBy_drawnBy]
  by_cases hb : maskOf (posMask s p) = blankSeg
  · simp [hb, State.pin, otherLines, otherEvents, posReport, drawsAt]
  · simp [hb, State.pin, State.settle, State.emit, State.shiftLatch_eq, otherLines, otherEvents, posReport, drawsAt,
      hc]

theorem dslot_toList (s : State) :
    s.dslot.toList = [s.dslot[(0 : Fin 4)], s.dslot[(1 : Fin 4)], s.dslot[(2 : Fin 4)], s.dslot[(3 : Fin 4)]] := by
  apply List.ext_getElem
  · simp
  · intro i h1 h2
    match i, h2 with
    | 0, _ | 1, _ | 2, _ | 3, _ => rfl

theorem invalidBefore_one (s : State) : invalidBefore s 1 = drawsAt s 0 := by
  simp only [invalidBefore, dslot_toList]
  simp [drawsAt, List.countP_cons]

theorem invalidBefore_two (s : State) : invalidBefore s 2 = drawsAt s 0 + drawsAt s 1 := by
  simp only [invalidBefore, dslot_toList]
  simp [drawsAt, List.countP_cons, Nat.add_comm]

theorem invalidBefore_three (s : State) : invalidBefore s 3 = drawsAt s 0 + drawsAt s 1 + drawsAt s 2 := by
  show List.countP isInvalid (s.dslot.toList.take 3) = _
  rw [dslot_toList]
  simp only [drawsAt, List.take_succ_cons, List.take_zero, List.countP_cons, List.countP_nil]
  omega

theorem invalidCount (s : State) :
    s.dslot.toList.countP isInvalid = drawsAt s 0 + drawsAt s 1 + drawsAt s 2 + drawsAt s 3 := by
  rw [dslot_toList]
  simp only [drawsAt, List.countP_cons, List.countP_nil]
  omega

/-- The line levels a RENDER leaves. -/
def renderLines (s : State) : Lines :=
  otherLines s 3 (otherLines s 2 (otherLines s 1
    (transferLines s.cfg (transferLines s.cfg s.lines (posMask s 0)) (segByte false (maskOf (posMask s 0))))))

theorem lastByte_eq (s : State) :
    (if maskOf (posMask s 3) = blankSeg then
      if maskOf (posMask s 2) = blankSeg then
        if maskOf (posMask s 1) = blankSeg then segByte false (maskOf (posMask s 0)) else posMask s 1
      else posMask s 2
    else posMask s 3) = lastByte s := by
  simp only [lastByte, ite_not, ne_eq]

theorem transferLines_get (p : Params) (l : Lines) (b : Byte) (q : Line) :
    (transferLines p l b).get q =
      if p.serial = .lineLevel then
        if q = .latch then true else if q = .clk then false else if q = .data then b.getLsbD 0 else l.get q
      else l.get q := by
  unfold transferLines
  cases p.serial <;> simp

theorem otherLines_get (s : State) (p : Fin 4) (l : Lines) (q : Line) :
    (otherLines s p l).get q =
      if q = enLine p then false
      else if maskOf (posMask s p) = blankSeg then l.get q else (transferLines s.cfg l (posMask s p)).get q := by
  unfold otherLines
  by_cases hq : q = enLine p <;> split <;> simp only [Lines.get_set, hq, if_true, if_false]

/-- A RENDER, as one change of the state. -/
theorem renderAll_eq (s : State) :
    renderAll s =
      { s with
        masks := drawnBy s.masks (s.dslot.toList.countP isInvalid)
        lines := renderLines s
        srq := lastByte s
        trace := s.trace ++ renderEvents s } := by
  have e1 := renderOther_eq s (renderFirst s) 1 (by decide) (by rw [renderFirst_eq]) (by rw [renderFirst_eq])
    (by rw [renderFirst_eq, invalidBefore_one])
  have e2 := renderOther_eq s (renderOther 1 (enLine 1) (renderFirst s)) 2 (by decide)
    (by rw [e1, renderFirst_eq]) (by rw [e1, renderFirst_eq]) (by rw [e1, invalidBefore_one, invalidBefore_two])
  have e3 := renderOther_eq s (renderOther 2 (enLine 2) (renderOther 1 (enLine 1) (renderFirst s))) 3 (by decide)
    (by rw [e2, e1, renderFirst_eq]) (by rw [e2, e1, renderFirst_eq])
    (by rw [e2, invalidBefore_two, invalidBefore_three])
  unfold renderAll
  rw [show Line.en1 = enLine 1 from rfl, show Line.en2 = enLine 2 from rfl, show Line.en3 = enLine 3 from rfl,
    e3, e2, e1, renderFirst_eq]
  simp only [invalidBefore_three, invalidCount, renderLines, renderEvents, lastByte_eq, List.append_assoc]

end Sys2Proof.Machine
end

