-- ==== Sys2Proof/Laws/Timing.lean ====
section
/-! SUPPORT. Timestamp arithmetic: the model's subtraction is 00 R11's, and its two comparisons are the rules'. -/

namespace Sys2Proof.Machine

open Sys2Proof.Safety

theorem wrapSub_eq_gap (w a b : Nat) : (wrapSub w a b : Int) = gap w a b := by
  unfold wrapSub gap
  have hM : 0 < 2 ^ w := Nat.two_pow_pos w
  generalize 2 ^ w = M at *
  have h : b % M < M := Nat.mod_lt _ hM
  rw [Int.natCast_emod, Int.natCast_add, Int.ofNat_sub (Nat.le_of_lt h), Int.natCast_emod]
  have e : (a : Int) + ((M : Int) - (b : Int) % (M : Int)) = ((a : Int) - b) + M * (1 + (b : Int) / M) := by
    have := Int.emod_add_mul_ediv (b : Int) M
    rw [Int.mul_add, Int.mul_one]
    omega
  rw [e, Int.add_mul_emod_self_left]

theorem gap_nonneg (w a b : Nat) : 0 ≤ gap w a b :=
  Int.emod_nonneg _ (by have := Nat.two_pow_pos w; omega)

theorem gap_lt (w a b : Nat) : gap w a b < ((2 ^ w : Nat) : Int) :=
  Int.emod_lt_of_pos _ (by have := Nat.two_pow_pos w; omega)

/-- The debounce test is 42 R151's. -/
theorem debounced_iff (s : State) : debounced s.cfg s.now s.last = true ↔ InWindow s := by
  unfold debounced InWindow
  rw [decide_eq_true_iff, ← wrapSub_eq_gap]
  omega

/-- The deadline test is 43 R187's, or R188's. -/
theorem due_iff (p : Params) (t d : Nat) : due p t d = true ↔ DeadlineDue p t d := by
  unfold due DeadlineDue
  cases p.autoclearCmp
  · simp
  · simp only [decide_eq_true_iff, ← wrapSub_eq_gap]
    omega

theorem armed_iff (s : State) : s.armed = true ↔ s.deadline ≠ 0 := by simp [State.armed]

theorem now_lt (s : State) (k : Nat) : s.nowAt k < 2 ^ s.cfg.width := Nat.mod_lt _ (Nat.two_pow_pos _)

theorem wrapAdd_lt (w a b : Nat) : wrapAdd w a b < 2 ^ w := Nat.mod_lt _ (Nat.two_pow_pos _)

end Sys2Proof.Machine
end

