-- ==== Sys2Proof/Laws/Feedback.lean ====
section
/-! SUPPORT. The feedback operations: clearing, and what a check can do. -/

namespace Sys2Proof.Machine

open Sys2Proof.Safety

/-- Clearing feedback: success off, failure off, timer disarmed, two drives traced (43 R184). -/
theorem State.clearFeedback_eq (s : State) :
    s.clearFeedback =
      { s with
        succ := false
        fail := false
        deadline := 0
        lines := (s.lines.set .succ false).set .fail false
        trace := s.trace ++ [.drive .succ false, .drive .fail false] } := by
  simp [State.clearFeedback, State.setSucc, State.setFail, State.disarm, State.pin]

/-- Everything a check can do (43 R187). -/
theorem checkAutoClear_cases (s : State) :
    (s.deadline ≠ 0 ∧ DeadlineDue s.cfg s.now s.deadline ∧ checkAutoClear s = s.clockDrawn.clearFeedback) ∨
      (¬(s.deadline ≠ 0 ∧ DeadlineDue s.cfg s.now s.deadline) ∧ checkAutoClear s = s.clockDrawn) := by
  unfold checkAutoClear
  by_cases h : s.armed = true ∧ due s.cfg s.now s.deadline = true
  · have h' := h
    rw [armed_iff, due_iff] at h'
    exact .inl ⟨h'.1, h'.2, by simp [h.1, h.2]⟩
  · have h' := h
    rw [armed_iff, due_iff] at h'
    refine .inr ⟨h', ?_⟩
    rw [if_neg]
    simpa using h

end Sys2Proof.Machine
end

