-- ==== Sys2Proof/Laws/Keypad.lean ====
section
/-! SUPPORT. The keypad scanner: the first active row of a sample, and what a scan of the four columns can do. -/

namespace Sys2Proof.Machine

open Sys2Proof.Safety

theorem lowestActive_eq_some (rows : Rows) (r : Fin 4) :
    lowestActive rows = some r ↔
      rows.getLsbD r.val = false ∧ ∀ r' : Fin 4, r' < r → rows.getLsbD r'.val = true := by
  revert rows r; decide

theorem lowestActive_eq_none (rows : Rows) : lowestActive rows = none ↔ rows = 0b1111#4 := by
  revert rows; decide

/-- The line levels after the first `n` columns have been driven and restored. -/
def scanLines (l : Lines) (n : Nat) : Lines :=
  ((List.finRange 4).take n).foldl (fun m c => (m.set (colLine c) false).set (colLine c) true) l

/-- The state after the first `n` columns of a scan, none of which had an active row (42 R159). -/
def scanState (s : State) (n : Nat) : State :=
  { s with
    lines := scanLines s.lines n
    rows := drawnBy s.rows n
    trace := s.trace ++ scanEvents s n }

theorem scanLines_get (l : Lines) (n : Nat) (p : Line) :
    (scanLines l n).get p = if p ∈ ((List.finRange 4).take n).map colLine then true else l.get p := by
  unfold scanLines
  generalize (List.finRange 4).take n = cs
  induction cs generalizing l with
  | nil => simp
  | cons c cs ih =>
    simp only [List.foldl_cons, ih, Lines.get_set, List.map_cons, List.mem_cons]
    by_cases h1 : p ∈ cs.map colLine <;> by_cases h2 : p = colLine c <;> simp [h1, h2]

theorem finRange_take_succ (c : Fin 4) :
    (List.finRange 4).take (c.val + 1) = (List.finRange 4).take c.val ++ [c] := by
  revert c; decide

/-- One column of a scan: its sample decides between the hit and going on (42 R157, R159). -/
theorem scan_column (s : State) (t : Nat) (c : Fin 4) (cs : List (Fin 4)) :
    scan t (c :: cs) (scanState s c.val) =
      match lowestActive (s.rowsAt c.val) with
      | some r => ({ scanState s (c.val + 1) with last := t }, hitWord c r (keyEvent s.cfg r c))
      | none => scan t cs (scanState s (c.val + 1)) := by
  have h : ((scanState s c.val).pin (colLine c) false).rowsAt 0 = s.rowsAt c.val := by
    simp [State.rowsAt, scanState]
  have hs : (((scanState s c.val).pin (colLine c) false).sampleRows c).pin (colLine c) true =
      scanState s (c.val + 1) := by
    simp only [State.sampleRows, h]
    simp only [scanState, State.pin, scanLines, scanEvents, finRange_take_succ, List.foldl_append, List.foldl_cons,
      List.foldl_nil, List.flatMap_append, List.flatMap_cons, List.flatMap_nil, Source.next_eq, drawnBy_drawnBy,
      List.append_assoc, List.cons_append, List.nil_append, List.append_nil]
  rw [scan]
  simp only [h]
  cases hl : lowestActive (s.rowsAt c.val) with
  | none => simp only [hs]
  | some r =>
    simp only [← hs]
    rfl

theorem scanState_zero (s : State) : scanState s 0 = s := by
  simp [scanState, scanLines, scanEvents]

/-- A scan finds the lowest active row of the first column that has one (42 R153, R157). -/
theorem scan_hit (s : State) (t : Nat) (c r : Fin 4)
    (h0 : ∀ c' : Fin 4, c' < c → lowestActive (s.rowsAt c'.val) = none)
    (h1 : lowestActive (s.rowsAt c.val) = some r) :
    scan t [0, 1, 2, 3] s =
      ({ scanState s (c.val + 1) with last := t }, hitWord c r (keyEvent s.cfg r c)) := by
  have g : ∀ (c : Fin 4) (cs : List (Fin 4)), scan t (c :: cs) (scanState s c.val) = _ := fun c cs =>
    scan_column s t c cs
  have g0 := g 0 [1, 2, 3]
  have g1 := g 1 [2, 3]
  have g2 := g 2 [3]
  have g3 := g 3 []
  simp only [Fin.isValue, show ((0 : Fin 4)).val = 0 from rfl, show ((1 : Fin 4)).val = 1 from rfl,
    show ((2 : Fin 4)).val = 2 from rfl, show ((3 : Fin 4)).val = 3 from rfl, scanState_zero] at g0 g1 g2 g3
  match c with
  | 0 => rw [g0]; simp only [show s.rowsAt 0 = s.rowsAt ((0 : Fin 4)).val from rfl, h1]; rfl
  | 1 =>
    have a0 := h0 0 (by decide)
    rw [g0]; simp only [show s.rowsAt 0 = s.rowsAt ((0 : Fin 4)).val from rfl, a0]
    rw [g1]; simp only [show s.rowsAt 1 = s.rowsAt ((1 : Fin 4)).val from rfl, h1]; rfl
  | 2 =>
    have a0 := h0 0 (by decide)
    have a1 := h0 1 (by decide)
    rw [g0]; simp only [show s.rowsAt 0 = s.rowsAt ((0 : Fin 4)).val from rfl, a0]
    rw [g1]; simp only [show s.rowsAt 1 = s.rowsAt ((1 : Fin 4)).val from rfl, a1]
    rw [g2]; simp only [show s.rowsAt 2 = s.rowsAt ((2 : Fin 4)).val from rfl, h1]; rfl
  | 3 =>
    have a0 := h0 0 (by decide)
    have a1 := h0 1 (by decide)
    have a2 := h0 2 (by decide)
    rw [g0]; simp only [show s.rowsAt 0 = s.rowsAt ((0 : Fin 4)).val from rfl, a0]
    rw [g1]; simp only [show s.rowsAt 1 = s.rowsAt ((1 : Fin 4)).val from rfl, a1]
    rw [g2]; simp only [show s.rowsAt 2 = s.rowsAt ((2 : Fin 4)).val from rfl, a2]
    rw [g3]; simp only [show s.rowsAt 3 = s.rowsAt ((3 : Fin 4)).val from rfl, h1]; rfl

/-- A scan that finds no active row (42 R159). -/
theorem scan_none (s : State) (t : Nat) (h : ∀ c : Fin 4, lowestActive (s.rowsAt c.val) = none) :
    scan t [0, 1, 2, 3] s = (scanState s 4, noHitWord) := by
  have g0 := scan_column s t 0 [1, 2, 3]
  have g1 := scan_column s t 1 [2, 3]
  have g2 := scan_column s t 2 [3]
  have g3 := scan_column s t 3 []
  simp only [h] at g0 g1 g2 g3
  have z : scanState s ((0 : Fin 4)).val = s := scanState_zero s
  rw [z] at g0
  exact g0.trans (g1.trans (g2.trans g3))

/-- Everything a scan can do. -/
theorem scan_cases (s : State) (t : Nat) :
    ((∀ c : Fin 4, lowestActive (s.rowsAt c.val) = none) ∧ scan t [0, 1, 2, 3] s = (scanState s 4, noHitWord)) ∨
      ∃ c r : Fin 4, lowestActive (s.rowsAt c.val) = some r ∧
        scan t [0, 1, 2, 3] s =
          ({ scanState s (c.val + 1) with last := t }, hitWord c r (keyEvent s.cfg r c)) := by
  by_cases h : ∀ c : Fin 4, lowestActive (s.rowsAt c.val) = none
  · exact .inl ⟨h, scan_none s t h⟩
  · right
    have ex : ∃ c : Fin 4, (lowestActive (s.rowsAt c.val)).isSome = true ∧
        ∀ c' : Fin 4, c' < c → lowestActive (s.rowsAt c'.val) = none := by
      by_cases a0 : lowestActive (s.rowsAt ((0 : Fin 4)).val) = none
      · by_cases a1 : lowestActive (s.rowsAt ((1 : Fin 4)).val) = none
        · by_cases a2 : lowestActive (s.rowsAt ((2 : Fin 4)).val) = none
          · refine ⟨3, ?_, ?_⟩
            · rw [Option.isSome_iff_ne_none]
              intro a3
              exact h fun c => match c with | 0 => a0 | 1 => a1 | 2 => a2 | 3 => a3
            · intro c' hc
              match c' with | 0 => exact a0 | 1 => exact a1 | 2 => exact a2 | 3 => exact absurd hc (by decide)
          · refine ⟨2, Option.isSome_iff_ne_none.2 a2, ?_⟩
            intro c' hc
            match c' with
            | 0 => exact a0
            | 1 => exact a1
            | 2 => exact absurd hc (by decide)
            | 3 => exact absurd hc (by decide)
        · refine ⟨1, Option.isSome_iff_ne_none.2 a1, ?_⟩
          intro c' hc
          match c' with
          | 0 => exact a0
          | 1 => exact absurd hc (by decide)
          | 2 => exact absurd hc (by decide)
          | 3 => exact absurd hc (by decide)
      · refine ⟨0, Option.isSome_iff_ne_none.2 a0, ?_⟩
        intro c' hc
        exact absurd hc (by simp)
    obtain ⟨c, hc, hb⟩ := ex
    obtain ⟨r, hr⟩ := Option.isSome_iff_exists.1 hc
    exact ⟨c, r, hr, scan_hit s t c r hb hr⟩

end Sys2Proof.Machine
end

