-- ==== Sys2Proof/Laws/PerInstr.lean ====
section
/-! SUPPORT. Statements about each operation as syntax: its word is one of its opcode table row's. -/

namespace Sys2Proof.Laws.TableRow

/-- The mask of the operation's row: the bits its format fixes (30 R66 to R68). -/
def mask : Instr → Word
  | .enc _ _ => 0xFFFFFFE0#32
  | .slots _ _ _ _ => 0xFFFF0000#32
  | .render => 0xFFFFFFFF#32
  | .poll => 0xFFFFFFFF#32
  | .fires => 0xFFFFFFFF#32
  | .firef => 0xFFFFFFFF#32
  | .clrfb => 0xFFFFFFFF#32
  | .admon => 0xFFFFFFFF#32
  | .admoff => 0xFFFFFFFF#32
  | .chkac => 0xFFFFFFFF#32

/-- The fixed bits of the operation's row (30 R69). -/
def fixedBits : Instr → Word
  | .enc _ _ => 0x01000000#32
  | .slots _ _ _ _ => 0x02000000#32
  | .render => 0x03000000#32
  | .poll => 0x04000000#32
  | .fires => 0x05000000#32
  | .firef => 0x06000000#32
  | .clrfb => 0x07000000#32
  | .admon => 0x08000000#32
  | .admoff => 0x09000000#32
  | .chkac => 0x0A000000#32

/-- The operation's word has its row's fixed bits. -/
def Statement (i : Instr) : Prop := encode i &&& mask i = fixedBits i

theorem enc (f : Bool) (code : Code) : Statement (.enc f code) := by
  unfold Statement; revert f code; decide

theorem slots (s0 s1 s2 s3 : Code) : Statement (.slots s0 s1 s2 s3) := by
  have h : encode (.slots s0 s1 s2 s3) = (0x0200#16 ++ (s3 ++ s2 ++ s1 ++ s0) : BitVec (16 + 16)) := by
    apply BitVec.eq_of_toNat_eq
    show (0x02#8 ++ (0#8 ++ s3 ++ s2 ++ s1 ++ s0)).toNat = _
    simp only [BitVec.toNat_append]
    simp
  unfold Statement mask fixedBits
  rw [h]
  have e : (0xFFFF0000#32 : BitVec (16 + 16)) = 0xFFFF#16 ++ 0x0000#16 := by decide
  refine (congrArg (fun m => (0x0200#16 ++ (s3 ++ s2 ++ s1 ++ s0) : BitVec (16 + 16)) &&& m) e).trans ?_
  rw [BitVec.and_append]
  simp

theorem render : Statement .render := by unfold Statement; decide

theorem poll : Statement .poll := by unfold Statement; decide

theorem fires : Statement .fires := by unfold Statement; decide

theorem firef : Statement .firef := by unfold Statement; decide

theorem clrfb : Statement .clrfb := by unfold Statement; decide

theorem admon : Statement .admon := by unfold Statement; decide

theorem admoff : Statement .admoff := by unfold Statement; decide

theorem chkac : Statement .chkac := by unfold Statement; decide

end Sys2Proof.Laws.TableRow
end

