-- ==== Sys2Proof/Laws/Trace.lean ====
section
/-! SUPPORT. Acting a trace out on the pins: appending, transfers, and the events that touch no enable. -/

namespace Sys2Proof.Machine

open Sys2Proof.Safety

@[simp] theorem Pins.after_nil (p : Pins) : p.after [] = p := rfl

theorem Pins.after_append (p : Pins) (es fs : List Event) : p.after (es ++ fs) = (p.after es).after fs :=
  List.foldl_append

theorem Pins.after_cons (p : Pins) (e : Event) (fs : List Event) : p.after (e :: fs) = (p.apply e).after fs := rfl

theorem Pins.apply_lines_drive (p : Pins) (l : Line) (v : Bool) : (p.apply (.drive l v)).lines = p.lines.set l v := by
  cases l <;> rfl

theorem Pins.apply_srq_drive (p : Pins) (l : Line) (v : Bool) (h : l ≠ .latch) :
    (p.apply (.drive l v)).srq = p.srq := by
  cases l <;> first | rfl | exact absurd rfl h

/-- A transfer's events, acted out from a low serial clock, leave the byte on the outputs and the lines the transfer
leaves (41 R128, R130). -/
theorem after_shiftEvents (c : Params) (p : Pins) (b : Byte) (h : p.lines.clk = false) :
    (p.after (shiftEvents c b)).lines = transferLines c p.lines b ∧ (p.after (shiftEvents c b)).srq = b := by
  unfold shiftEvents transferLines
  cases c.serial
  · exact ⟨rfl, rfl⟩
  · simp only [after_serialDrives p b h, and_self]

theorem transferLines_clk (c : Params) (l : Lines) (b : Byte) (h : l.clk = false) :
    (transferLines c l b).clk = false := by
  unfold transferLines
  cases c.serial
  · exact h
  · rfl

theorem posEnabled_transferLines (c : Params) (l : Lines) (b q : Byte) (k : Fin 4) :
    posEnabled (transferLines c l b) q k = posEnabled l q k := by
  unfold transferLines
  cases c.serial <;> rfl

/-- Drives that touch no enable line and do not raise the latch leave every position's enable as it was. -/
theorem posEnabled_after_drives (p : Pins) (ds : List (Line × Bool)) (k : Fin 4)
    (h : ∀ d ∈ ds, d.1 ∉ [Line.en1, .en2, .en3] ∧ d ≠ (.latch, true)) :
    posEnabled (p.after (ds.map fun d => .drive d.1 d.2)).lines (p.after (ds.map fun d => .drive d.1 d.2)).srq k =
      posEnabled p.lines p.srq k := by
  induction ds generalizing p with
  | nil => rfl
  | cons d ds ih =>
    obtain ⟨hen, hlatch⟩ := h d List.mem_cons_self
    have hsrq : (p.apply (.drive d.1 d.2)).srq = p.srq := by
      obtain ⟨l, v⟩ := d
      cases l <;> cases v <;> first | rfl | exact absurd rfl hlatch
    rw [List.map_cons, Pins.after_cons, ih _ fun e he => h e (List.mem_cons_of_mem _ he), hsrq,
      Pins.apply_lines_drive]
    exact posEnabled_set_of_ne _ _ _ _ _ (by simpa using hen)

/-- At every point inside a transfer the lines enabling positions 1 to 3 are untouched and the outputs still hold the
old byte, until the transfer's last event. -/
theorem within_shiftEvents (c : Params) (p : Pins) (b : Byte) (n : Nat)
    (hn : n < (shiftEvents c b).length) (k : Fin 4) :
    posEnabled (p.after ((shiftEvents c b).take n)).lines (p.after ((shiftEvents c b).take n)).srq k =
      posEnabled p.lines p.srq k := by
  unfold shiftEvents at *
  cases hc : c.serial with
  | byteLevel =>
    simp only [hc, List.length_singleton, Nat.lt_one_iff] at hn
    subst hn
    rfl
  | lineLevel =>
    simp only [hc, List.length_map] at hn ⊢
    rw [← List.map_take]
    refine posEnabled_after_drives p _ k fun d hd => ?_
    unfold serialDrives at hd hn
    rw [List.take_append_of_le_length (by simp at hn ⊢; omega)] at hd
    have := List.mem_of_mem_take hd
    simp only [List.mem_append, List.mem_flatMap, List.mem_cons, List.not_mem_nil, or_false] at this
    rcases this with rfl | ⟨i, -, rfl | rfl | rfl⟩ <;> simp

end Sys2Proof.Machine
end

