-- ==== Sys2Proof/Tests/Slice0.lean ====
section
/-! SUPPORT. The model's own tests. Expected values are the spec's: the encodings of 30, the tables of 40, and the
vectors and programs of 95, named in each comment. The witnesses at the end show that each statement's hypotheses can
be met together. -/

namespace Sys2Proof.Tests

open Sys2Proof.Machine Sys2Proof.Safety

/-! ### A concrete machine -/

/-- `CMD_MAP` instance X1 (95). -/
def x1 : CmdMap := { a := .adminToggle, b := .secondarySet, c := .clear, d := .delete, star := .none }

/-- The parameters of the vectors (95): the defaults, X1, and values for what no vector reads. -/
def cfg0 : Params where
  width := 32
  debounce := 300
  autoclear := 10000
  settle := 1
  keymap := Config.defaultKeymap
  cmdMap := x1
  onLevel := 255
  autoclearCmp := .absolute
  serial := .byteLevel

/-- The state after reset with those parameters and a known shift register. -/
def st : State := { State.reset with cfg := cfg0, srq := 0 }

/-- `s` with clock samples to come. -/
def clk (s : State) (ts : List Nat) : State := { s with clock := { queue := ts, drawn := 0 } }

/-- `s` with row samples to come. -/
def rowed (s : State) (rs : List Rows) : State := { s with rows := { queue := rs, drawn := 0 } }

/-- `s` with masks of invalid codes to come. -/
def masked (s : State) (ms : List Byte) : State := { s with masks := { queue := ms, drawn := 0 } }

/-- `s` with the cells `a b c d` in `DSLOT`. -/
def cells (s : State) (a b c d : Code) : State := { s with dslot := #v[a, b, c, d] }

/-- The state an outcome goes on with. -/
def nextOf (o : Host.Outcome State Fault Refusal) : Option State :=
  match o with
  | .next t => some t
  | .fault _ => none
  | .refused _ => none

/-- What an operation adds in a state that has observed nothing: its result and its trace. -/
def does (i : Instr) (s : State) : Option (List Word × List Event) :=
  (nextOf (exec i s)).map fun t => (t.results, t.trace)

/-- What a feedback operation acts on, and its trace. -/
structure Feedback where
  succ : Bool
  fail : Bool
  adm : Bool
  deadline : Nat
  trace : List Event
  deriving DecidableEq

/-- The feedback state an operation leaves, and its trace. -/
def feedback (i : Instr) (s : State) : Option Feedback :=
  (nextOf (exec i s)).map fun t => ⟨t.succ, t.fail, t.adm, t.deadline, t.trace⟩

/-- `LAST`, result and trace after a poll. -/
def polled (s : State) : Option (Nat × List Word × List Event) :=
  (nextOf (exec .poll s)).map fun t => (t.last, t.results, t.trace)

/-- `SR_Q` and trace after a render. -/
def rendered (s : State) : Option (Byte × List Event) := (nextOf (exec .render s)).map fun t => (t.srq, t.trace)

/-! ### What is well formed, and an ill-formed term for each check -/

theorem test_wf_command_words :
    (rawOf 0x0100001F#32).wellFormed = true ∧ (rawOf 0x0200FFFF#32).wellFormed = true ∧
      (rawOf 0x0A000000#32).wellFormed = true := by decide

theorem test_wf_opcode : (rawOf 0x00000000#32).opKnown = false ∧ (rawOf 0x0B000000#32).opKnown = false := by decide

theorem test_wf_reserved :
    (rawOf 0x01000020#32).reservedClear = false ∧ (rawOf 0x02010000#32).reservedClear = false ∧
      (rawOf 0x03000001#32).reservedClear = false := by decide

theorem test_wf_params : cfg0.wellFormed = true := by decide

theorem test_wf_width : { cfg0 with width := 14 }.wellFormed = false := by decide

theorem test_wf_debounce : { cfg0 with debounce := 2 ^ 32 }.wellFormed = false := by decide

theorem test_wf_autoclear : { cfg0 with autoclear := 2 ^ 32 }.wellFormed = false := by decide

theorem test_wf_keymap :
    { cfg0 with keymap := Config.defaultKeymap.set 3 #v[.star, .digit 0, .hash, .star] }.wellFormed = false := by
  decide

theorem test_wf_onLevel : { cfg0 with onLevel := 0 }.wellFormed = false := by decide

/-! ### Decoding: words written out from 30 R65 to R69, one field after the other -/

-- OP 0x01, 19 zero bits, F = 1, CODE = 2 (30 R67).
theorem test_decode_enc : decode 0b00000001_0000000000000000000_1_0010#32 = some (.enc true 2#4) := by decide

-- OP 0x02, 8 zero bits, S3 = 4, S2 = 3, S1 = 2, S0 = 1 (30 R68).
theorem test_decode_slots :
    decode 0b00000010_00000000_0100_0011_0010_0001#32 = some (.slots 1#4 2#4 3#4 4#4) := by decide

theorem test_decode_render : decode 0b00000011_000000000000000000000000#32 = some .render := by decide

theorem test_decode_poll : decode 0b00000100_000000000000000000000000#32 = some .poll := by decide

theorem test_decode_fires : decode 0b00000101_000000000000000000000000#32 = some .fires := by decide

theorem test_decode_firef : decode 0b00000110_000000000000000000000000#32 = some .firef := by decide

theorem test_decode_clrfb : decode 0b00000111_000000000000000000000000#32 = some .clrfb := by decide

theorem test_decode_admon : decode 0b00001000_000000000000000000000000#32 = some .admon := by decide

theorem test_decode_admoff : decode 0b00001001_000000000000000000000000#32 = some .admoff := by decide

theorem test_decode_chkac : decode 0b00001010_000000000000000000000000#32 = some .chkac := by decide

-- 30 R76: unknown opcodes and bits that a format requires to be 0, each refused by its name.
theorem test_decode_refused :
    [0x00000000#32, 0x0B000000#32, 0x01000020#32, 0x02800000#32, 0x04000001#32].map (fun w =>
      match decodeWord w with
      | .ok _ => none
      | .error e => some e) =
    [some (.unknownOpcode 0x00#8), some (.unknownOpcode 0x0B#8), some (.reservedBits 0x01#8),
      some (.reservedBits 0x02#8), some (.reservedBits 0x04#8)] := by decide

theorem test_decodeTableWord : decodeTableWord 32 0x0200FF21 = some (.slots 1#4 2#4 0xF#4 0xF#4) := by decide

/-! ### The command stream -/

-- 10 R37: the first instruction after reset is the word placed.
theorem test_step_after_reset :
    (nextOf (step (State.reset.withFetchWord 32 0x08000000))).map (fun t => (t.adm, t.pc, t.results)) =
      some (true, 1, [0#32]) := by decide

-- 95 P5, pc 5: 0x0B000000 sets REFUSED and does nothing else; the run goes no further.
theorem test_step_refused :
    nextOf (step { st with prog := [0x0B000000#32, 0x08000000#32] }) =
        some { st with prog := [0x0B000000#32, 0x08000000#32], refused := true } ∧
      nextOf (step { st with prog := [0x0B000000#32, 0x08000000#32], refused := true }) = none := by decide

-- 60 R231: a run that has issued every word has ended successfully; a refused one has not.
theorem test_observe :
    ({ st with prog := [0#32], pc := 1 }.observe).isSome = true ∧
      ({ st with prog := [0#32], pc := 0, refused := true }.observe) = none := by decide

/-! ### ENC (95 section 2.3; 40 R102) -/

theorem test_enc_digits :
    (List.range 10).map (fun d => does (.enc true (BitVec.ofNat 4 d)) st) =
      [0xC0#32, 0xF9#32, 0xA4#32, 0xB0#32, 0x99#32, 0x92#32, 0x82#32, 0xF8#32, 0x80#32, 0x90#32].map
        fun r => some ([r], []) := by decide

theorem test_enc_blank_invalid :
    does (.enc false 0xF#4) st = some ([0x7F#32], []) ∧ does (.enc true 0xF#4) st = some ([0xFF#32], []) ∧
      does (.enc false 0xA#4) (masked st [0xD5#8]) = some ([0x55#32], [.report .invalidDigit (.code 0xA#4)]) := by
  decide

/-! ### SLOTS and RENDER (95 section 2.4) -/

theorem test_slots :
    (nextOf (exec (.slots 1#4 2#4 0xF#4 0xF#4) st)).map (·.dslot) = some #v[1#4, 2#4, 0xF#4, 0xF#4] := by decide

-- V-REN-1.
theorem test_render_two :
    rendered (cells st 1#4 2#4 0xF#4 0xF#4) =
      some (0x24#8,
        [.shift 0xF9#8, .settle, .shift 0x79#8, .shift 0x24#8, .drive .en1 true, .settle, .drive .en1 false,
         .drive .en2 false, .drive .en3 false]) := by decide

-- V-REN-8 with y = 0x7F: a drawn blank is driven off, and the outputs keep position 0's mask.
theorem test_render_invalid_blank :
    rendered (masked (cells st 1#4 0xB#4 0xF#4 0xF#4) [0xFF#8]) =
      some (0x79#8,
        [.shift 0xF9#8, .settle, .shift 0x79#8, .report .invalidDigit (.slot 1 0xB#4), .drive .en1 false,
         .drive .en2 false, .drive .en3 false]) := by decide

-- 41 R130: one transfer of 0x80, line by line, with the lines it leaves.
theorem test_transfer_lines :
    (let t := { st with cfg := { cfg0 with serial := .lineLevel } }.shiftLatch 0x80#8
     (t.srq, t.trace.length, t.trace.take 3, t.lines.latch, t.lines.clk, t.lines.data)) =
      (0x80#8, 26, [Event.drive .latch false, .drive .data true, .drive .clk true], true, false, false) := by decide

-- 10 R30: segment 3 of position 2 is lit only while its line is on and its bit is 0.
theorem test_display :
    segLit { Lines.reset with en2 := true } 0x77#8 2 3 = true ∧ segLit Lines.reset 0x77#8 2 3 = false ∧
      segLit { Lines.reset with en2 := true } 0x7F#8 2 3 = false := by decide

/-! ### POLL (95 section 2.5) -/

-- V-POLL-1.
theorem test_poll_hit :
    polled (rowed (clk st [1000]) [0b1111#4, 0b1101#4]) =
      some (1000, [0x000000B5#32],
        [.drive .col0 false, .sample 0 0b1111#4, .drive .col0 true, .drive .col1 false, .sample 1 0b1101#4,
         .drive .col1 true]) := by decide

-- V-POLL-10 and V-POLL-11: elapsed 299 and 300 across the wrap.
theorem test_poll_wrap :
    polled (rowed (clk { st with last := 0xFFFFFF9C } [199]) [0b1110#4]) = some (0xFFFFFF9C, [0x0000000F#32], []) ∧
      polled (rowed (clk { st with last := 0xFFFFFF9C } [200]) [0b1110#4]) =
        some (200, [0x00000011#32], [.drive .col0 false, .sample 0 0b1110#4, .drive .col0 true]) := by decide

-- 95 section 2.5, the table of every key's result, rows first.
theorem test_poll_keys :
    (List.finRange 4).map (fun r => (List.finRange 4).map fun c => (hitWord c r (keyEvent cfg0 r c)).toNat) =
      [[0x011, 0x092, 0x113, 0x19D], [0x034, 0x0B5, 0x136, 0x1BE], [0x057, 0x0D8, 0x159, 0x1DB],
       [0x07F, 0x0F0, 0x17C, 0x1FA]] := by decide

/-! ### Feedback (95 section 2.6) -/

-- V-FB-1 and V-FB-15.
theorem test_fires :
    feedback .fires (clk st [1000]) = some ⟨true, false, false, 11000, [.drive .succ true]⟩ ∧
      feedback .fires (clk { st with fail := true, deadline := 30000 } [25000]) =
        some ⟨true, true, false, 35000, [.drive .succ true]⟩ := by decide

-- V-FB-13: the sentinel collision.
theorem test_fires_sentinel :
    feedback .fires (clk st [0xFFFFD8F0]) = some ⟨true, false, false, 0, [.drive .succ true]⟩ := by decide

-- V-FB-5.
theorem test_firef :
    feedback .firef (clk st [0xFFFFFFF0]) = some ⟨false, true, false, 0x2700, [.drive .fail true]⟩ := by decide

-- V-FB-2, V-FB-3 and V-FB-18.
theorem test_chkac :
    feedback .chkac (clk { st with succ := true, deadline := 11000 } [10999]) =
        some ⟨true, false, false, 11000, []⟩ ∧
      feedback .chkac (clk { st with succ := true, deadline := 11000 } [11000]) =
        some ⟨false, false, false, 0, [.drive .succ false, .drive .fail false]⟩ ∧
      feedback .chkac (clk st [5]) = some ⟨false, false, false, 0, []⟩ := by decide

-- V-FB-6, V-FB-7 and V-FB-8.
theorem test_chkac_wrapped :
    feedback .chkac (clk { st with fail := true, deadline := 0x2700 } [0xFFFFFFF1]) =
        some ⟨false, false, false, 0, [.drive .succ false, .drive .fail false]⟩ ∧
      feedback .chkac
          (clk { st with cfg := { cfg0 with autoclearCmp := .wrapsafe }, fail := true, deadline := 0x2700 }
            [0xFFFFFFF1]) =
        some ⟨false, true, false, 0x2700, []⟩ ∧
      feedback .chkac
          (clk { st with cfg := { cfg0 with autoclearCmp := .wrapsafe }, fail := true, deadline := 0x2700 } [0x2700]) =
        some ⟨false, false, false, 0, [.drive .succ false, .drive .fail false]⟩ := by decide

-- V-FB-11.
theorem test_clrfb :
    feedback .clrfb { st with succ := true, adm := true, deadline := 11000 } =
      some ⟨false, false, true, 0, [.drive .succ false, .drive .fail false]⟩ := by decide

-- V-FB-9, V-FB-17 and V-FB-10.
theorem test_adm :
    feedback .admon st = some ⟨false, false, true, 0, [.drive .adm true]⟩ ∧
      feedback .admon { st with adm := true } = some ⟨false, false, true, 0, [.drive .adm true]⟩ ∧
      feedback .admoff { st with adm := true } = some ⟨false, false, false, 0, [.drive .adm false]⟩ := by decide

/-! ### Assembly (30 R79, R80) -/

theorem test_asm_enc : readAsm "ENC 2, 1 ; two" = some { instrs := [.enc true 2#4], now := none } := by decide

theorem test_asm_slots :
    readAsm "SLOTS 1, _, 0xA, 9" = some { instrs := [.slots 1#4 0xF#4 0xA#4 9#4], now := none } := by decide

theorem test_asm_now : readAsm "POLL @now=0x10" = some { instrs := [.poll], now := some 16 } := by decide

-- 00 R9: numbers written 0x.. are hexadecimal, 0b.. binary; each form refuses the digits it does not have.
theorem test_asm_numbers :
    ["0xD8F0", "0xd8f0", "55536", "0b1011", "0xG", "1A", "0b2", "0x", "0b", ""].map (fun t => readNat t.toList) =
      [some 0xD8F0, some 0xD8F0, some 55536, some 11, none, none, none, none, none, none] := by decide

theorem test_asm_pseudo :
    (readAsm "SHOW 1 2").map (fun l => l.instrs.map encode) = some [0x0200FF21#32] ∧
      (readAsm "EXITADM").map (fun l => l.instrs.map encode) = some [0x07000000#32, 0x09000000#32] ∧
      readAsm "CLRFB @now=1" = none := by decide

theorem test_asm_text : asmText (.slots 1#4 0xF#4 0xC#4 9#4) = "SLOTS 1, _, 0xC, 9" := by decide

/-! ### Witnesses: the hypotheses of each statement, met together -/

theorem test_witness_EncodeOfDecode : decode 0x0100001F#32 = some (.enc true 0xF#4) := by decide

theorem test_witness_DecodeByFields_enc :
    (0x0100001F#32).toNat / 2 ^ 24 = 1 ∧ (0x0100001F#32).toNat % 2 ^ 24 / 2 ^ 5 = 0 := by decide

theorem test_witness_DecodeByFields_slots :
    (0x0200FFFF#32).toNat / 2 ^ 24 = 2 ∧ (0x0200FFFF#32).toNat % 2 ^ 24 / 2 ^ 16 = 0 := by decide

theorem test_witness_DecodeByFields_plain :
    ((0x03000000#32).toNat / 2 ^ 24 = 3 ∧ (0x03000000#32).toNat % 2 ^ 24 = 0) ∧
      (0x0A000000#32).toNat / 2 ^ 24 = 10 ∧ (0x0A000000#32).toNat % 2 ^ 24 = 0 := by decide

/-- A stream whose first word is 0x0B000000, an opcode past the last. -/
def unknown : State := { st with prog := [0x0B000000#32] }

theorem test_witness_DecodeByFields_refused :
    let op := (0x0B000000#32).toNat / 2 ^ 24
    let opd := (0x0B000000#32).toNat % 2 ^ 24
    ¬(op = 1 ∧ opd / 2 ^ 5 = 0 ∨ op = 2 ∧ opd / 2 ^ 16 = 0 ∨ 3 ≤ op ∧ op ≤ 10 ∧ opd = 0) := by decide

theorem test_witness_StepRunsDecoded :
    { st with prog := [0x03000000#32] }.refused = false ∧
      { st with prog := [0x03000000#32] }.prog[{ st with prog := [0x03000000#32] }.pc]? = some 0x03000000#32 ∧
      decode 0x03000000#32 = some .render := by decide

theorem test_witness_RefusedWordStopsRun :
    unknown.prog[unknown.pc]? = some 0x0B000000#32 ∧ decode 0x0B000000#32 = none ∧ unknown.refused = false := by decide

theorem test_witness_StepWithoutWordHolds : st.refused = false ∧ st.prog.length ≤ st.pc := by decide

/-- A stream of three words, the last of which spells no operation. -/
def stopping : State := { st with prog := [0x08000000#32, 0x09000000#32, 0x00000000#32] }

/-- A stream of two words that both spell operations. -/
def ending : State := { st with prog := [0x08000000#32, 0x0200FFFF#32] }

theorem test_witness_RunReachesEnd :
    ending.refused = false ∧ ending.pc ≤ ending.prog.length ∧
      ∀ w ∈ ending.prog.drop ending.pc, (decode w).isSome = true :=
  ⟨rfl, by decide, List.all_eq_true.1 (by decide)⟩

-- At the boundary: nothing left to issue.
theorem test_witness_RunReachesEnd_empty :
    st.refused = false ∧ st.pc ≤ st.prog.length ∧ ∀ w ∈ st.prog.drop st.pc, (decode w).isSome = true :=
  ⟨rfl, by decide, List.all_eq_true.1 (by decide)⟩

theorem test_witness_RunStopsAtRefusedWord :
    stopping.refused = false ∧ stopping.prog[stopping.pc + 2]? = some 0x00000000#32 ∧ decode 0x00000000#32 = none ∧
      ∀ k < 2, ∀ v, stopping.prog[stopping.pc + k]? = some v → (decode v).isSome = true := by
  refine ⟨by decide, by decide, by decide, ?_⟩
  intro k hk v hv
  match k, hk with
  | 0, _ => cases hv; decide
  | 1, _ => cases hv; decide

theorem test_witness_EarlyPollIsDebounced :
    (clk st [299]).last = 0 ∧ (clk st [299]).now < (clk st [299]).cfg.debounce := by decide

theorem test_witness_SegmentTable : (0#4).toNat ≤ 9 ∧ (9#4).toNat ≤ 9 := by decide

theorem test_witness_EncOfValidCode :
    ((9#4).toNat ≤ 9 ∨ 9#4 = 0xF#4) ∧ ((0xF#4).toNat ≤ 9 ∨ 0xF#4 = 0xF#4) := by decide

theorem test_witness_EncOfInvalidCode :
    (10 ≤ (0xA#4).toNat ∧ (0xA#4).toNat ≤ 14) ∧ 10 ≤ (0xE#4).toNat ∧ (0xE#4).toNat ≤ 14 := by decide

theorem test_witness_SlotsWritesCells :
    (0x02010000#32).toNat / 2 ^ 24 = 2 ∧ (0x02010000#32).toNat % 2 ^ 24 / 2 ^ 16 ≠ 0 := by decide

theorem test_witness_TransferLatchesByte : st.cfg.serial = .byteLevel ∧ 0 < 8 ∧ 7 < 8 := by decide

/-- The machine in the line-level refinement. -/
def lined : State := { st with cfg := { cfg0 with serial := .lineLevel } }

theorem test_witness_TransferLineByLine : lined.cfg.serial = .lineLevel := by decide

theorem test_witness_SerialDrivesReachOutputs :
    (lined.pinsWith 0xFF#8).lines.clk = false ∧
      25 < ((serialDrives 0xA5#8).map fun d => Event.drive d.1 d.2).length := by decide

theorem test_witness_RenderReadsOnlySlots :
    st.dslot = { st with last := 7 }.dslot ∧ st.cfg = { st with last := 7 }.cfg ∧
      st.masks = { st with last := 7 }.masks := by decide

theorem test_st_dark : Dark st := by
  show ∀ p, posEnabled st.lines st.srq p = false
  decide

theorem test_witness_RenderEnablesOnePosition : Dark st ∧ st.lines.clk = false := ⟨test_st_dark, by decide⟩

theorem test_witness_RenderShowsPositions :
    (cells st 0xF#4 1#4 2#4 8#4).lines.clk = false ∧ (posMask (cells st 0xF#4 1#4 2#4 8#4) 0).getLsbD 7 = true ∧
      maskOf (posMask (cells st 0xF#4 1#4 2#4 8#4) 3) ≠ blankSeg := by decide

theorem test_witness_InvalidSlotsReported :
    (cells st 0xA#4 9#4 0xE#4 0xF#4).lines.clk = false ∧
      Event.shift 0x10#8 ∈ otherEvents (cells st 0xA#4 9#4 0xE#4 0xF#4) 1 := by decide

theorem test_witness_RenderRepeats :
    (∀ p : Fin 4, isInvalid (cells st 9#4 0xF#4 0#4 1#4).dslot[p] = false) ∧
      ∃ t, exec .render (cells st 9#4 0xF#4 0#4 1#4) = .next t := ⟨by decide, _, rfl⟩

theorem test_witness_DisplayStaysDark : Dark ending ∧ ∃ t, step ending = .next t := ⟨test_st_dark, _, rfl⟩

theorem test_witness_PollInWindow : InWindow (clk st [299]) := by
  show gap _ _ _ < _
  decide

/-- A poll at the first tick outside the window, with the row samples `rs`. -/
def scanning (rs : List Rows) : State := rowed (clk st [300]) rs

theorem test_scanning_window : ∀ rs, ¬InWindow (scanning rs) := by
  intro rs
  show ¬gap 32 300 0 < 300
  decide

theorem test_witness_PollHit_first :
    ¬InWindow (scanning [0b1110#4]) ∧
      (∀ c' : Fin 4, c' < 0 → (scanning [0b1110#4]).rowsAt c'.val = 0b1111#4) ∧
      ((scanning [0b1110#4]).rowsAt (0 : Fin 4).val).getLsbD (0 : Fin 4).val = false ∧
      ∀ r' : Fin 4, r' < 0 → ((scanning [0b1110#4]).rowsAt (0 : Fin 4).val).getLsbD r'.val = true :=
  ⟨test_scanning_window _, fun _ h => absurd h (Fin.not_lt_zero _), by decide, by decide⟩

/-- The row samples of a key at row 3, column 3 alone. -/
def lastKey : List Rows := [0b1111#4, 0b1111#4, 0b1111#4, 0b0111#4]

theorem test_witness_PollHit_last :
    ¬InWindow (scanning lastKey) ∧
      (∀ c' : Fin 4, c' < 3 → (scanning lastKey).rowsAt c'.val = 0b1111#4) ∧
      ((scanning lastKey).rowsAt (3 : Fin 4).val).getLsbD (3 : Fin 4).val = false ∧
      ∀ r' : Fin 4, r' < 3 → ((scanning lastKey).rowsAt (3 : Fin 4).val).getLsbD r'.val = true :=
  ⟨test_scanning_window _, by decide, by decide, by decide⟩

theorem test_witness_PollWithoutKey :
    ¬InWindow (scanning [0b1111#4, 0b1111#4, 0b1111#4, 0b1111#4]) ∧
      ∀ c : Fin 4, (scanning [0b1111#4, 0b1111#4, 0b1111#4, 0b1111#4]).rowsAt c.val = 0b1111#4 :=
  ⟨test_scanning_window _, by decide⟩

-- V-POLL-10: the last hit at 2^32 - 100, the poll 299 ticks later.
theorem test_witness_DebounceSurvivesWrap :
    let s := clk { st with last := 0xFFFFFF9C } [199]
    0xFFFFFF9C ≤ 0x1000000C7 ∧ 0x1000000C7 - 0xFFFFFF9C < 2 ^ s.cfg.width ∧
      s.last = 0xFFFFFF9C % 2 ^ s.cfg.width ∧ s.now = 0x1000000C7 % 2 ^ s.cfg.width := by decide

/-- A poll at 300 that hits, and one 299 ticks later. -/
def twoPolls : State := rowed (clk st [300, 599]) [0b1110#4]

theorem test_witness_OneHitPerWindow :
    ∃ a b c, exec .poll twoPolls = .next a ∧ Instr.poll ∉ [Instr.admon] ∧ execAll [.admon] a = .next b ∧
      exec .poll b = .next c ∧ gap twoPolls.cfg.width b.now twoPolls.now < (twoPolls.cfg.debounce : Int) :=
  ⟨_, _, _, rfl, by decide, rfl, rfl, by decide⟩

theorem test_st_columns : ∀ c, colActive st.lines c = false := by decide

theorem test_witness_OneColumnActive : ∀ c, colActive (scanning lastKey).lines c = false := test_st_columns

-- V-POLL-7's keys: (0, 1) and (3, 1), of which the poll takes the lower row.
theorem test_witness_IdealMatrixPoll :
    let s := scanning [0b1111#4, 0b0110#4, 0b1111#4, 0b1111#4]
    let K : List (Fin 4 × Fin 4) := [(0, 1), (3, 1)]
    ¬InWindow s ∧ (∀ c' : Fin 4, IdealRows K c' (s.rowsAt c'.val)) ∧ ((0 : Fin 4), (1 : Fin 4)) ∈ K ∧
      (∀ c', ((0 : Fin 4), c') ∈ K → c' = 1) ∧
      ∀ r' c', (r', c') ∈ K → (1 : Fin 4) < c' ∨ (1 : Fin 4) = c' ∧ (0 : Fin 4) ≤ r' := by
  refine ⟨test_scanning_window _, fun c' r => ⟨?_, fun h _ => ?_⟩, by decide, by decide, by decide⟩
  · revert c' r
    decide
  · revert h
    revert c' r
    decide

theorem test_witness_ChkacEffect_due :
    (clk { st with deadline := 11000 } [11000]).deadline ≠ 0 ∧
      DeadlineDue cfg0 (clk { st with deadline := 11000 } [11000]).now 11000 ∧
      DeadlineDue { cfg0 with autoclearCmp := .wrapsafe } (clk { st with deadline := 11000 } [11000]).now 11000 := by
  refine ⟨by decide, ?_, ?_⟩
  · show 11000 ≤ _
    decide
  · show gap 32 _ 11000 < _
    decide

theorem test_witness_ChkacEffect_not_due :
    ¬((clk { st with deadline := 11000 } [10999]).deadline ≠ 0 ∧
      DeadlineDue cfg0 (clk { st with deadline := 11000 } [10999]).now 11000) := by
  show ¬(_ ∧ 11000 ≤ _)
  decide

theorem test_witness_ChkacEffect_disarmed : ¬((clk st [5]).deadline ≠ 0 ∧ DeadlineDue cfg0 (clk st [5]).now 0) :=
  fun h => h.1 rfl

theorem test_witness_SentinelCollision :
    (clk st [0xFFFFD8F0]).now + (clk st [0xFFFFD8F0]).cfg.autoclear = 2 ^ (clk st [0xFFFFD8F0]).cfg.width := by
  decide

theorem test_witness_OnlyAdminOpsWriteAdm : Instr.chkac ≠ .admon ∧ Instr.chkac ≠ .admoff := by decide

theorem test_witness_ClearOncePerArming :
    st.deadline = 0 ∧ Instr.fires ∉ [Instr.admon] ∧ Instr.firef ∉ [Instr.admon] ∧
      ∃ t, execAll [.admon] st = .next t := ⟨rfl, by decide, by decide, _, rfl⟩

-- The source's cycle after a fire (60 R225): CHKAC, then RENDER, POLL, CHKAC. The checks take samples 1 and 3.
theorem test_checkDraws :
    checkDraws 1 [.chkac, .render, .poll, .chkac] = [1, 3] ∧ checkDraws 1 [.enc true 1#4, .admon, .poll] = [] := by
  decide

/-- The operations of that cycle. -/
def cycle : List Instr := [.chkac, .render, .poll, .chkac]

theorem test_cycle_leaves_feedback : ∀ i ∈ cycle, LeavesFeedback i := by
  show ∀ i ∈ cycle, i ≠ .clrfb ∧ i ≠ .fires ∧ i ≠ .firef
  decide

-- E9: a fire at 1000, checks at 10999 and 11000.
theorem test_witness_AutoClearAbsolute :
    let s := clk st [1000, 10999, 10999, 11000]
    s.cfg.autoclearCmp = .absolute ∧ 0 < s.cfg.autoclear ∧ s.now + s.cfg.autoclear < 2 ^ s.cfg.width ∧
      (∀ i ∈ cycle, LeavesFeedback i) ∧ ∀ k ∈ checkDraws 1 cycle, s.now ≤ s.nowAt k :=
  ⟨by decide, by decide, by decide, test_cycle_leaves_feedback, by decide⟩

-- A fire at 2^32 - 16, and checks one tick later and at the wrapped deadline.
theorem test_witness_AutoClearWrapsafe :
    let s := clk { st with cfg := { cfg0 with autoclearCmp := .wrapsafe } } [0xFFFFFFF0, 0xFFFFFFF1, 0, 0x2700]
    s.cfg.autoclearCmp = .wrapsafe ∧ 1 ≤ s.cfg.width ∧ s.cfg.autoclear ≤ 2 ^ (s.cfg.width - 1) ∧
      (s.now + s.cfg.autoclear) % 2 ^ s.cfg.width ≠ 0 ∧ (∀ i ∈ cycle, LeavesFeedback i) ∧
      ∀ k ∈ checkDraws 1 cycle,
        gap s.cfg.width (s.nowAt k) s.now < ((2 ^ (s.cfg.width - 1) + s.cfg.autoclear : Nat) : Int) :=
  ⟨by decide, by decide, by decide, by decide, test_cycle_leaves_feedback, by decide⟩

-- V-FB-5 and V-FB-6, and the same with a poll between; then the boundary, a check at the wrapped deadline.
theorem test_witness_WrappedDeadlineClearsEarly :
    let s := clk st [0xFFFFFFF0, 0xFFFFFFF1, 0x2700]
    s.cfg.autoclearCmp = .absolute ∧ s.cfg.autoclear < 2 ^ s.cfg.width ∧
      2 ^ s.cfg.width < s.now + s.cfg.autoclear ∧ (∀ i ∈ [Instr.poll], LeavesFeedback i ∧ i ≠ .chkac) ∧
      (∀ k ∈ checkDraws 1 ([] ++ [.chkac]), s.now + s.cfg.autoclear ≤ s.nowAt k + 2 ^ s.cfg.width) ∧
      ∀ k ∈ checkDraws 1 ([.poll] ++ [.chkac]), s.now + s.cfg.autoclear ≤ s.nowAt k + 2 ^ s.cfg.width := by
  refine ⟨by decide, by decide, by decide, ?_, by decide, by decide⟩
  show ∀ i ∈ [Instr.poll], (i ≠ .clrfb ∧ i ≠ .fires ∧ i ≠ .firef) ∧ i ≠ .chkac
  decide

theorem test_witness_WritersOfState :
    ∃ t, exec .admon st = .next t ∧ t.adm ≠ st.adm ∧ t.lines ≠ st.lines := ⟨_, rfl, by decide, by decide⟩

theorem test_witness_WritersOfState_poll :
    ∃ t, exec .poll (scanning lastKey) = .next t ∧ t.last ≠ (scanning lastKey).last := ⟨_, rfl, by decide⟩

theorem test_witness_WritersOfState_render :
    ∃ t, exec .render (cells st 8#4 1#4 1#4 1#4) = .next t ∧ t.srq ≠ (cells st 8#4 1#4 1#4 1#4).srq :=
  ⟨_, rfl, by decide⟩

theorem test_witness_WritersOfState_slots :
    ∃ t, exec (.slots 1#4 2#4 3#4 4#4) st = .next t ∧ t.dslot ≠ st.dslot := ⟨_, rfl, by decide⟩

theorem test_witness_WritersOfState_feedback :
    (∃ t, exec .fires (clk st [1]) = .next t ∧ t.succ ≠ (clk st [1]).succ ∧ t.deadline ≠ (clk st [1]).deadline) ∧
      ∃ t, exec .firef (clk st [1]) = .next t ∧ t.fail ≠ (clk st [1]).fail :=
  ⟨⟨_, rfl, by decide, by decide⟩, _, rfl, by decide⟩

theorem test_witness_HiddenTimestamps : Instr.render ≠ .poll ∧ Instr.poll ≠ .chkac := by decide

/-- The source's host at Enter, with the right code in its buffer. -/
def atEnter : HostView := { mode := .normal, bufLen := 4, bufAfter := [], codeOk := true }

theorem test_witness_HostClearsBeforeFire :
    [Instr.clrfb, .fires, .slots 0xF#4 0xF#4 0xF#4 0xF#4] ∈ hostIssues atEnter .enter ∧
      [Instr.clrfb, .fires, .slots 0xF#4 0xF#4 0xF#4 0xF#4] =
        [.clrfb] ++ .fires :: [.slots 0xF#4 0xF#4 0xF#4 0xF#4] ∧
      (Instr.fires = .fires ∨ Instr.fires = .firef) ∧
      ∃ t, execAll [.clrfb] { st with succ := true, deadline := 9 } = .next t :=
  ⟨by decide, rfl, .inl rfl, _, rfl⟩

theorem test_witness_StepKeepsIndicatorLines : IndicatorsMatch ending ∧ ∃ t, step ending = .next t :=
  ⟨⟨rfl, rfl, rfl⟩, _, rfl⟩

theorem test_witness_StepKeepsLinesIdle : LinesIdle ending ∧ ∃ t, step ending = .next t :=
  ⟨⟨rfl, rfl, rfl, rfl, test_st_columns⟩, _, rfl⟩

theorem test_witness_StepKeepsTimestamps :
    TimesFit { ending with last := 0xFFFFFFFF, deadline := 0xFFFFFFFF } ∧
      ∃ t, step { ending with last := 0xFFFFFFFF, deadline := 0xFFFFFFFF } = .next t := by
  refine ⟨?_, _, rfl⟩
  show _ < 2 ^ 32 ∧ _ < 2 ^ 32
  decide

theorem test_witness_StepKeepsStream : ∃ t, step ending = .next t := ⟨_, rfl⟩

theorem test_witness_TraceReplaysToLines : ending.lines.clk = false ∧ ∃ t, step ending = .next t := ⟨rfl, _, rfl⟩

end Sys2Proof.Tests
end

section
/-! PROOFS. What a command word decodes to, by the numbers its fields hold (30 R65 to R69, R76). -/

namespace Sys2Proof.Encoding

/-! ### The decoder's field tests, as facts about numbers -/

/-- The opcode field of a word is its top byte (30 R65). -/
theorem rawOf_op_eq_iff (w : Word) (op : BitVec 8) : (rawOf w).op = op ↔ w.toNat / 2 ^ 24 = op.toNat := by
  rw [← (rawOf_toNat w).1, BitVec.toNat_inj]

/-- Bits of the operand that reach its top bit, as the reserved bits of FE (30 R67) and FS (30 R68) do, are all 0
exactly when the operand's number is too small to reach them. -/
theorem extractLsb'_eq_zero_iff_div_eq_zero {opd : BitVec 24} {start len : Nat} (h : start + len = 24) :
    opd.extractLsb' start len = 0#len ↔ opd.toNat / 2 ^ start = 0 := by
  have hlt : opd.toNat / 2 ^ start < 2 ^ len :=
    Nat.div_lt_of_lt_mul (by rw [← Nat.pow_add, h]; exact opd.isLt)
  rw [← BitVec.toNat_inj, BitVec.extractLsb'_toNat, Nat.shiftRight_eq_div_pow, Nat.mod_eq_of_lt hlt,
    BitVec.toNat_zero]

/-- A cell of the operand is its number shifted down and cut to the cell's width (30 R67, R68). -/
theorem extractLsb'_eq_ofNat_div (opd : BitVec 24) (start len : Nat) :
    opd.extractLsb' start len = BitVec.ofNat len (opd.toNat / 2 ^ start) := by
  rw [BitVec.extractLsb', Nat.shiftRight_eq_div_pow]

/-- The flag F of ENC is bit 4 of the operand's number (30 R67). -/
theorem getLsbD_four_eq_decide (opd : BitVec 24) : opd.getLsbD 4 = decide (opd.toNat / 16 % 2 = 1) :=
  Nat.testBit_eq_decide_div_mod_eq

/-- The operand as a bit vector is 0 exactly when its number is (30 R65, R66). -/
theorem rawOf_opd_eq_zero_iff (w : Word) : (rawOf w).opd = 0#24 ↔ w.toNat % 2 ^ 24 = 0 := by
  rw [← (rawOf_toNat w).2, ← BitVec.toNat_inj, BitVec.toNat_zero]

/-- The F0 rows of the opcode map in order, the first at opcode 3 (30 R66, R69). -/
def f0Instrs : List Instr := [.render, .poll, .fires, .firef, .clrfb, .admon, .admoff, .chkac]

/-- From opcode 3 on, `f0Instr` reads the F0 rows in order and names nothing past the last. -/
theorem f0Instr_eq_getElem? : ∀ op : BitVec 8, 3 ≤ op.toNat → f0Instr op = f0Instrs[op.toNat - 3]? := by decide

/-! ### The decoder: what a word spells and when it is refused, opcode by opcode -/

section
variable {w : Word}

theorem decode_of_op_eq_zero (hop : w.toNat / 2 ^ 24 = 0) : decode w = none := by
  have h : (rawOf w).op = 0x00#8 := (rawOf_op_eq_iff w _).mpr hop
  simp [decode, decodeWord, decodeRaw, f0Instr, h, Except.toOption]

/-- Opcode 1, format FE (30 R67). -/
theorem decode_of_op_eq_one (hop : w.toNat / 2 ^ 24 = 1) :
    decode w =
      if w.toNat % 2 ^ 24 / 2 ^ 5 = 0 then
        some (.enc (decide (w.toNat % 2 ^ 24 / 16 % 2 = 1)) (BitVec.ofNat 4 (w.toNat % 2 ^ 24)))
      else none := by
  have h : (rawOf w).op = 0x01#8 := (rawOf_op_eq_iff w _).mpr hop
  have hres := extractLsb'_eq_zero_iff_div_eq_zero (opd := (rawOf w).opd) (start := 5) (len := 19) rfl
  simp only [decode, decodeWord, decodeRaw, if_pos h, hres]
  simp only [getLsbD_four_eq_decide, extractLsb'_eq_ofNat_div, (rawOf_toNat w).2, Nat.pow_zero, Nat.div_one]
  exact apply_ite Except.toOption _ _ _

/-- Opcode 2, format FS (30 R68). -/
theorem decode_of_op_eq_two (hop : w.toNat / 2 ^ 24 = 2) :
    decode w =
      if w.toNat % 2 ^ 24 / 2 ^ 16 = 0 then
        some (.slots (BitVec.ofNat 4 (w.toNat % 2 ^ 24)) (BitVec.ofNat 4 (w.toNat % 2 ^ 24 / 16))
          (BitVec.ofNat 4 (w.toNat % 2 ^ 24 / 256)) (BitVec.ofNat 4 (w.toNat % 2 ^ 24 / 4096)))
      else none := by
  have h : (rawOf w).op = 0x02#8 := (rawOf_op_eq_iff w _).mpr hop
  have h1 : (rawOf w).op ≠ 0x01#8 := by rw [h]; decide
  have hres := extractLsb'_eq_zero_iff_div_eq_zero (opd := (rawOf w).opd) (start := 16) (len := 8) rfl
  simp only [decode, decodeWord, decodeRaw, if_neg h1, if_pos h, hres]
  simp only [extractLsb'_eq_ofNat_div, (rawOf_toNat w).2, Nat.pow_zero, Nat.div_one]
  exact apply_ite Except.toOption _ _ _

/-- Opcodes from 3 on: format F0 (30 R66) up to the last row, and the unknown opcodes past it. -/
theorem decode_of_three_le_op (hop : 3 ≤ w.toNat / 2 ^ 24) :
    decode w = if w.toNat % 2 ^ 24 = 0 then f0Instrs[w.toNat / 2 ^ 24 - 3]? else none := by
  have h1 : (rawOf w).op ≠ 0x01#8 := fun h => absurd hop (by rw [(rawOf_op_eq_iff w _).mp h]; decide)
  have h2 : (rawOf w).op ≠ 0x02#8 := fun h => absurd hop (by rw [(rawOf_op_eq_iff w _).mp h]; decide)
  have hf0 : f0Instr (rawOf w).op = f0Instrs[w.toNat / 2 ^ 24 - 3]? := by
    rw [← (rawOf_toNat w).1] at hop ⊢
    exact f0Instr_eq_getElem? _ hop
  simp only [decode, decodeWord, decodeRaw, if_neg h1, if_neg h2, hf0, rawOf_opd_eq_zero_iff]
  cases f0Instrs[w.toNat / 2 ^ 24 - 3]? with
  | none => exact (ite_self none).symm
  | some i => exact apply_ite Except.toOption _ _ _

/-- Every word outside the three formats is refused (30 R76). -/
theorem decode_eq_none_of_no_format
    (h : ¬(w.toNat / 2 ^ 24 = 1 ∧ w.toNat % 2 ^ 24 / 2 ^ 5 = 0 ∨
      w.toNat / 2 ^ 24 = 2 ∧ w.toNat % 2 ^ 24 / 2 ^ 16 = 0 ∨
      3 ≤ w.toNat / 2 ^ 24 ∧ w.toNat / 2 ^ 24 ≤ 10 ∧ w.toNat % 2 ^ 24 = 0)) :
    decode w = none := by
  obtain ⟨henc, hslots, hf0⟩ := not_or.mp h |>.imp_right not_or.mp
  obtain h0 | h1 | h2 | h3 : w.toNat / 2 ^ 24 = 0 ∨ w.toNat / 2 ^ 24 = 1 ∨ w.toNat / 2 ^ 24 = 2 ∨
      3 ≤ w.toNat / 2 ^ 24 := by omega
  · exact decode_of_op_eq_zero h0
  · rw [decode_of_op_eq_one h1, if_neg fun hres => henc ⟨h1, hres⟩]
  · rw [decode_of_op_eq_two h2, if_neg fun hres => hslots ⟨h2, hres⟩]
  · rw [decode_of_three_le_op h3]
    split
    next hopd =>
      have hlast : ¬w.toNat / 2 ^ 24 ≤ 10 := fun hle => hf0 ⟨h3, hle, hopd⟩
      exact List.getElem?_eq_none (show 8 ≤ _ by omega)
    next => rfl

end

/-- Settles O3: each accepting clause is the equation of its opcode range with the reserved bits 0. -/
theorem decodeByFields : Obligations.DecodeByFields := by
  intro w
  refine ⟨fun hop hres => ?enc, fun hop hres => ?slots, fun hop _ hopd => ?f0, decode_eq_none_of_no_format⟩
  case enc => rw [decode_of_op_eq_one hop, if_pos hres]
  case slots => rw [decode_of_op_eq_two hop, if_pos hres]
  case f0 =>
    rw [decode_of_three_le_op hop, if_pos hopd]
    rfl

end Sys2Proof.Encoding
end

section
/-! PROOFS. The segment encoder: the segment bits of a code, the number of its byte, and what ENC leaves (40 R100 to
R107). -/

namespace Sys2Proof.SegmentEncoder

open Sys2Proof.Machine Sys2Proof.Safety

/-! ### The segment table -/

/-- Bit `i` of a code's segment bits, read off the table of 40 R101, whose first row is bit 6. -/
theorem getLsbD_seg7 (code : Code) (i : Nat) :
    (seg7 code).getLsbD i =
      (decide (i < 7) &&
        [decide (code.toNat ∈ [0, 1, 7]), decide (code.toNat ∈ [1, 2, 3, 7]), decide (code.toNat ∉ [0, 2, 6, 8]),
          decide (code.toNat ∈ [1, 4, 7]), decide (code.toNat = 2), decide (code.toNat ∈ [5, 6]),
          decide (code.toNat ∈ [1, 4])].getD (6 - i) false) :=
  BitVec.getLsbD_ofBoolListBE ..

/-- Settles O15: each bit is its row of the table, and a digit is its own code's number. -/
theorem segmentBitsOfDigit : Obligations.SegmentBitsOfDigit := by
  intro d
  have hcode : (BitVec.ofNat 4 d.val).toNat = d.val := Nat.mod_eq_of_lt (Nat.lt_trans d.isLt (by decide))
  simp only [getLsbD_seg7, hcode]
  exact ⟨decide_eq_true_iff, decide_eq_true_iff, decide_eq_true_iff, decide_eq_true_iff, decide_eq_true_iff,
    decide_eq_true_iff, decide_eq_true_iff⟩

/-! ### Segment bytes as numbers -/

/-- The mask of a byte, with bit 7 forced to 0, is the byte's number modulo 128 (40 R106). -/
theorem toNat_segByte_false_maskOf (b : Byte) : (segByte false (maskOf b)).toNat = b.toNat % 128 := by
  rw [toNat_segByte, maskOf, BitVec.extractLsb'_toNat, Nat.shiftRight_zero]
  exact Nat.zero_add _

/-- The byte of a digit or blank (40 R104, R105). -/
theorem toNat_segEncode_of_valid (s : State) (f : Bool) {code : Code} (h : isInvalid code = false) :
    (segEncode s f code).toNat =
      (if f then 128 else 0) + (if code = blankCode then 0x7F else (seg7 code).toNat) := by
  rw [segEncode_eq, h, if_neg Bool.false_ne_true, toNat_segByte, apply_ite BitVec.toNat]
  rfl

/-- The byte of an invalid code (40 R106). -/
theorem toNat_segEncode_of_invalid (s : State) (f : Bool) {code : Code} (h : isInvalid code = true) :
    (segEncode s f code).toNat = if f then (s.maskAt 0).toNat else (s.maskAt 0).toNat % 128 := by
  rw [segEncode_eq, h, if_pos rfl, apply_ite BitVec.toNat, toNat_segByte_false_maskOf]

/-! ### ENC -/

/-- ENC for every code: the report and the draw where the code is invalid, then the byte as the result (40 R100). -/
theorem exec_enc (f : Bool) (code : Code) (s : State) :
    exec (.enc f code) s =
      .next { s with
        masks := drawnBy s.masks (if isInvalid code then 1 else 0)
        trace := s.trace ++ if isInvalid code then [.report .invalidDigit (.code code)] else []
        results := s.results ++ [(segEncode s f code).setWidth 32]
        pc := s.pc + 1 } := by
  show execEnc f code s = _
  rw [execEnc, segEncoded_eq]
  rfl

/-- ENC's result has the byte's number: zero-extension keeps it (40 R100). -/
theorem toNat_setWidth_segEncode (s : State) (f : Bool) (code : Code) :
    ((segEncode s f code).setWidth 32).toNat = (segEncode s f code).toNat :=
  BitVec.toNat_setWidth_of_le (by decide)

/-- Settles O17: a digit or blank is no invalid code, so nothing is reported or drawn. -/
theorem encOfValidCode : Obligations.EncOfValidCode := by
  intro f code s hcode
  have hvalid : isInvalid code = false := (isInvalid_eq_false_iff code).mpr hcode
  refine ⟨(segEncode s f code).setWidth 32, ?value, ?state⟩
  case value => exact (toNat_setWidth_segEncode s f code).trans (toNat_segEncode_of_valid s f hvalid)
  case state => simp [exec_enc, hvalid]

/-- Settles O18: the codes 0xA to 0xE are the invalid ones. -/
theorem encOfInvalidCode : Obligations.EncOfInvalidCode := by
  intro f code s hlo hhi
  have hinvalid : isInvalid code = true := (isInvalid_iff code).mpr ⟨hlo, hhi⟩
  refine ⟨(segEncode s f code).setWidth 32, ?value, ?state⟩
  case value => exact (toNat_setWidth_segEncode s f code).trans (toNat_segEncode_of_invalid s f hinvalid)
  case state => simp [exec_enc, hinvalid]

end Sys2Proof.SegmentEncoder
end

section
/-! PROOFS. The display multiplexer: SLOTS and its word, and what RENDER puts in the trace and reads (41 R120 to
R127). -/

namespace Sys2Proof.DisplayMultiplexer

open Sys2Proof.Machine Sys2Proof.Safety

/-! ### RENDER: its whole next state and its trace -/

/-- RENDER as one change of the state (41 R125 to R127). -/
theorem exec_render (s : State) :
    exec .render s =
      .next { s with
        masks := drawnBy s.masks (s.dslot.toList.countP isInvalid)
        lines := renderLines s
        srq := lastByte s
        trace := s.trace ++ renderEvents s
        results := s.results ++ [0#32]
        pc := s.pc + 1 } := by
  show execRender s = _
  rw [execRender, renderAll_eq]
  rfl

/-- Settles O23: the trace and the result are two fields of RENDER's next state. -/
theorem renderTrace : Obligations.RenderTrace := fun s => ⟨_, exec_render s, rfl, rfl⟩

/-! ### What RENDER reads -/

section
variable {s s' : State} (hslots : s.dslot = s'.dslot) (hmasks : s.masks = s'.masks)
include hslots hmasks

/-- A position's byte depends on the slots and the draws of invalid codes alone (40 R104 to R106). -/
theorem posMask_congr (p : Fin 4) : posMask s p = posMask s' p := by
  simp only [posMask, invalidBefore, State.maskAt, hslots, hmasks]

theorem lastByte_congr : lastByte s = lastByte s' := by
  simp only [lastByte, posMask_congr hslots hmasks]

theorem renderEvents_congr (hcfg : s.cfg = s'.cfg) : renderEvents s = renderEvents s' := by
  simp only [renderEvents, firstEvents, otherEvents, posReport, posMask_congr hslots hmasks, hslots, hcfg]

end

/-! ### The lines RENDER drives -/

/-- RENDER leaves the enables off, whatever they were (41 R126). -/
theorem renderLines_get_enable (s : State) {p : Line} (hp : p ∈ [Line.en1, .en2, .en3]) :
    (renderLines s).get p = false := by
  simp only [List.mem_cons, List.not_mem_nil, or_false] at hp
  obtain rfl | rfl | rfl := hp <;> simp [renderLines, otherLines_get, transferLines_get, enLine]

/-- The event is one the display may cause: a drive of a serial or enable line, or anything else but a drive or a
sample of the rows (41 R127). -/
def OnDisplay : Event → Prop
  | .drive p _ => p ∈ [Line.data, .clk, .latch, .en1, .en2, .en3]
  | .sample _ _ => False
  | .shift _ => True
  | .settle => True
  | .report _ _ => True

@[simp] theorem onDisplay_settle : OnDisplay .settle := trivial

@[simp] theorem onDisplay_drive_enLine (p : Fin 4) (v : Bool) : OnDisplay (.drive (enLine p) v) := by
  show enLine p ∈ _
  revert p
  decide

/-- A transfer drives the serial lines alone, in either trace detail (41 R128, R130). -/
theorem onDisplay_of_mem_shiftEvents (c : Params) (b : Byte) : ∀ e ∈ shiftEvents c b, OnDisplay e := by
  unfold shiftEvents
  cases c.serial with
  | byteLevel => simp [OnDisplay]
  | lineLevel => simp [serialDrives, OnDisplay]

theorem onDisplay_of_mem_posReport (s : State) (p : Fin 4) : ∀ e ∈ posReport s p, OnDisplay e := by
  unfold posReport
  split <;> simp [OnDisplay]

theorem onDisplay_of_mem_firstEvents (s : State) : ∀ e ∈ firstEvents s, OnDisplay e := by
  simp only [firstEvents, List.forall_mem_append]
  exact ⟨⟨⟨onDisplay_of_mem_posReport s 0, onDisplay_of_mem_shiftEvents _ _⟩, by simp⟩,
    onDisplay_of_mem_shiftEvents _ _⟩

theorem onDisplay_of_mem_otherEvents (s : State) (p : Fin 4) : ∀ e ∈ otherEvents s p, OnDisplay e := by
  rw [otherEvents, List.forall_mem_append]
  refine ⟨onDisplay_of_mem_posReport s p, ?_⟩
  split
  case isTrue => simp
  case isFalse =>
    rw [List.forall_mem_append]
    exact ⟨onDisplay_of_mem_shiftEvents _ _, by simp⟩

/-- No event of a RENDER drives a column or an indicator, and none samples the rows (41 R127). -/
theorem onDisplay_of_mem_renderEvents (s : State) : ∀ e ∈ renderEvents s, OnDisplay e := by
  simp only [renderEvents, List.forall_mem_append]
  exact ⟨⟨⟨onDisplay_of_mem_firstEvents s, onDisplay_of_mem_otherEvents s 1⟩, onDisplay_of_mem_otherEvents s 2⟩,
    onDisplay_of_mem_otherEvents s 3⟩

/-- The display's lines are none of the columns and indicators. -/
theorem not_onDisplay_drive {p : Line} (v : Bool)
    (hp : p ∈ [Line.col0, .col1, .col2, .col3, .succ, .fail, .adm]) : ¬OnDisplay (.drive p v) := by
  show p ∉ _
  revert p
  decide

/-- Settles O25: the events and the last byte are functions of what the two states agree on, the enables end off in
both, and every event is one of the display's. -/
theorem renderReadsOnlySlots : Obligations.RenderReadsOnlySlots := by
  intro s s' hslots hcfg hmasks
  have hevents := renderEvents_congr hslots hmasks hcfg
  refine ⟨_, _, renderEvents s, 0#32, exec_render s, exec_render s', rfl, ?trace, ?outputs, rfl, rfl, ?enables, rfl,
    rfl, ?drives, ?samples⟩
  case trace => rw [hevents]
  case outputs => exact lastByte_congr hslots hmasks
  case enables =>
    intro p hp
    exact (renderLines_get_enable s hp).trans (renderLines_get_enable s' hp).symm
  case drives => exact fun v p hp hmem => not_onDisplay_drive v hp (onDisplay_of_mem_renderEvents s _ hmem)
  case samples => exact fun c r hmem => onDisplay_of_mem_renderEvents s _ hmem

/-! ### SLOTS -/

/-- The four cells of a SLOTS operand, as one number, taken apart again (30 R68). -/
theorem ofNat_cell_of_cells (s0 s1 s2 s3 : Code) :
    let n := ((s3.toNat * 2 ^ 4 + s2.toNat) * 2 ^ 4 + s1.toNat) * 2 ^ 4 + s0.toNat
    n / 2 ^ 16 = 0 ∧ BitVec.ofNat 4 n = s0 ∧ BitVec.ofNat 4 (n / 16) = s1 ∧ BitVec.ofNat 4 (n / 256) = s2 ∧
      BitVec.ofNat 4 (n / 4096) = s3 := by
  have h0 := s0.isLt
  have h1 := s1.isLt
  have h2 := s2.isLt
  have h3 := s3.isLt
  simp only [← BitVec.toNat_inj, BitVec.toNat_ofNat]
  omega

/-- The word 0x02, 0x00, S3, S2, S1, S0 as a number: opcode 2 over the operand of SLOTS (30 R68). -/
theorem toNat_slotsWord (s0 s1 s2 s3 : Code) :
    (0x02#8 ++ 0#8 ++ s3 ++ s2 ++ s1 ++ s0).toNat =
      2 * 2 ^ 24 + (((s3.toNat * 2 ^ 4 + s2.toNat) * 2 ^ 4 + s1.toNat) * 2 ^ 4 + s0.toNat) := by
  simp only [toNat_append_add, BitVec.toNat_ofNat]
  omega

theorem decode_slotsWord (s0 s1 s2 s3 : Code) :
    decode (0x02#8 ++ 0#8 ++ s3 ++ s2 ++ s1 ++ s0) = some (.slots s0 s1 s2 s3) := by
  obtain ⟨hres, hc0, hc1, hc2, hc3⟩ := ofNat_cell_of_cells s0 s1 s2 s3
  have hword := toNat_slotsWord s0 s1 s2 s3
  generalize ((s3.toNat * 2 ^ 4 + s2.toNat) * 2 ^ 4 + s1.toNat) * 2 ^ 4 + s0.toNat = n at *
  generalize (0x02#8 ++ 0#8 ++ s3 ++ s2 ++ s1 ++ s0 : Word) = w at *
  have hopd : w.toNat % 2 ^ 24 = n := by omega
  rw [Encoding.decode_of_op_eq_two (by omega), hopd, if_pos hres, hc0, hc1, hc2, hc3]

/-- Settles O19: opcode 2 is read by its fields, and the reserved bits are what a refused word of it has set. -/
theorem slotsWritesCells : Obligations.SlotsWritesCells := by
  intro s0 s1 s2 s3 s
  refine ⟨decode_slotsWord s0 s1 s2 s3, rfl, fun w hop hres => ?reserved⟩
  case reserved => rw [Encoding.decode_of_op_eq_two hop, if_neg hres]

end Sys2Proof.DisplayMultiplexer
end

section
/-! PROOFS. The keypad scanner: what POLL does inside and outside the debounce window, the number of its result word,
and the window across a wrap of the clock (42 R150 to R163). -/

namespace Sys2Proof.KeypadScanner

open Sys2Proof.Machine Sys2Proof.Safety

/-! ### POLL, inside and outside the window -/

theorem clockDrawn_eq (s : State) : s.clockDrawn = { s with clock := drawnBy s.clock 1 } := by
  rw [State.clockDrawn, Source.next_eq]

/-- Inside the window POLL samples the clock and completes (42 R151). -/
theorem exec_poll_of_inWindow {s : State} (h : InWindow s) :
    exec .poll s = .next (s.clockDrawn.finish noHitWord) := by
  show execPoll s = _
  rw [execPoll, pollKeys, if_pos ((debounced_iff s).mpr h)]

/-- Outside the window POLL samples the clock, scans the four columns and completes (42 R160). -/
theorem exec_poll_of_not_inWindow {s : State} (h : ¬InWindow s) {s' : State} {w : Word}
    (hscan : scan s.now [0, 1, 2, 3] s.clockDrawn = (s', w)) : exec .poll s = .next (s'.finish w) := by
  show execPoll s = _
  rw [execPoll, pollKeys, if_neg (mt (debounced_iff s).mp h), hscan]

/-- Settles O31: no scan is made, so the clock sample, the result and `pc` are all that changes. -/
theorem pollInWindow : Obligations.PollInWindow := by
  intro s h
  rw [exec_poll_of_inWindow h, clockDrawn_eq]
  rfl

/-! ### POLL's scan -/

/-- The columns a POLL scans and restores, and the clock sample it takes before them, in one change of the state. -/
theorem scanState_clockDrawn (s : State) (n : Nat) :
    scanState s.clockDrawn n =
      { s with
        lines := scanLines s.lines n
        clock := drawnBy s.clock 1
        rows := drawnBy s.rows n
        trace := s.trace ++ scanEvents s n } := by
  rw [clockDrawn_eq]
  rfl

/-- The fields of a hit's word do not overlap, so its number is their sum (30 R72). -/
theorem hitWord_eq_ofNat (c r : Fin 4) (e : KeyEvent) :
    hitWord c r e = BitVec.ofNat 32 (c.val * 128 + r.val * 32 + 16 + (eventCode e).toNat) := by
  unfold hitWord
  generalize eventCode e = code
  revert c r code
  decide

/-- Settles O32: the scan ends at column `c`, and what it leaves there are the lines, samples and events of the columns
up to `c`. -/
theorem pollHit : Obligations.PollHit := by
  intro s c r hwindow hidle hactive hlowest
  have hscan := scan_hit s.clockDrawn s.now c r (fun c' hc' => (lowestActive_eq_none _).mpr (hidle c' hc'))
    ((lowestActive_eq_some _ r).mpr ⟨hactive, hlowest⟩)
  refine ⟨scanLines s.lines (c.val + 1), scanLines_get s.lines (c.val + 1), ?_⟩
  rw [exec_poll_of_not_inWindow hwindow hscan, hitWord_eq_ofNat, scanState_clockDrawn]
  rfl

/-- The lines of the first four columns are all four of 42 R154. -/
theorem colLines_eq : ((List.finRange 4).take 4).map colLine = [Line.col0, .col1, .col2, .col3] := by decide

/-- Settles O33: the scan passes all four columns, and `LAST` is not among what it leaves changed. -/
theorem pollWithoutKey : Obligations.PollWithoutKey := by
  intro s hwindow hidle
  have hscan := scan_none s.clockDrawn s.now fun c => (lowestActive_eq_none _).mpr (hidle c)
  refine ⟨scanLines s.lines 4, fun p => ?lines, ?state⟩
  case lines => rw [scanLines_get, colLines_eq]
  case state =>
    rw [exec_poll_of_not_inWindow hwindow hscan, scanState_clockDrawn]
    rfl

/-! ### The window across a wrap of the clock -/

/-- The gap of two timestamps is that of the real times they are taken at, modulo `2^W` (00 R11, 42 R163). -/
theorem gap_mod_mod {a b : Nat} (w : Nat) (h : a ≤ b) :
    gap w (b % 2 ^ w) (a % 2 ^ w) = (((b - a) % 2 ^ w : Nat) : Int) := by
  rw [gap, Int.natCast_emod, Int.natCast_emod, Int.natCast_emod, ← Int.sub_emod, Int.ofNat_sub h]

/-- Scanning at least one column leaves events. -/
theorem scanEvents_succ_ne_nil (s : State) (n : Nat) : scanEvents s (n + 1) ≠ [] := by
  simp [scanEvents, List.finRange_succ]

/-- A poll leaves the trace alone exactly inside the window: outside it column 0 at least is driven (42 R151, R153). -/
theorem exec_poll_trace_eq_iff (s : State) :
    ∃ t : State, exec .poll s = .next t ∧ (t.trace = s.trace ↔ InWindow s) := by
  by_cases hwindow : InWindow s
  · exact ⟨_, exec_poll_of_inWindow hwindow, iff_of_true rfl hwindow⟩
  · have hlonger (n : Nat) : s.trace ++ scanEvents s.clockDrawn (n + 1) ≠ s.trace :=
      mt List.append_right_eq_self.mp (scanEvents_succ_ne_nil _ n)
    obtain ⟨-, hscan⟩ | ⟨c, r, -, hscan⟩ := scan_cases s.clockDrawn s.now
    · exact ⟨_, exec_poll_of_not_inWindow hwindow hscan, iff_of_false (hlonger 3) hwindow⟩
    · exact ⟨_, exec_poll_of_not_inWindow hwindow hscan, iff_of_false (hlonger c.val) hwindow⟩

/-- Settles O34: the window is tested on the gap of the timestamps, and that is the real time between modulo `2^W`. -/
theorem debounceSurvivesWrap : Obligations.DebounceSurvivesWrap := by
  intro s a b hab hlast hnow
  obtain ⟨t, hexec, htrace⟩ := exec_poll_trace_eq_iff s
  have hwindow : t.trace = s.trace ↔ (b - a) % 2 ^ s.cfg.width < s.cfg.debounce := by
    rw [htrace, InWindow, hnow, hlast, gap_mod_mod _ hab, Int.ofNat_lt]
  exact ⟨t, hexec, hwindow, fun hreal => by rwa [Nat.mod_eq_of_lt hreal] at hwindow⟩

end Sys2Proof.KeypadScanner
end

section
/-! PROOFS. The feedback outputs and the auto-clear timer: the word and the whole next state of each operation, and that
only ADMON and ADMOFF reach the admin indicator (43 R180 to R189). -/

namespace Sys2Proof.FeedbackOutputs

open Sys2Proof.Machine Sys2Proof.Safety

/-! ### The next state of each operation -/

/-- Settles O40: the clock is sampled once, and the rest is the statement's state field by field. -/
theorem firesEffect : Obligations.FiresEffect := by
  refine fun s => ⟨by decide, ?_⟩
  show execFires s = _
  rw [execFires, KeypadScanner.clockDrawn_eq]
  rfl

/-- Settles O41: the clock is sampled once, and the rest is the statement's state field by field. -/
theorem firefEffect : Obligations.FirefEffect := by
  refine fun s => ⟨by decide, ?_⟩
  show execFiref s = _
  rw [execFiref, KeypadScanner.clockDrawn_eq]
  rfl

/-- Settles O42: both drives are `clearFeedback`'s. -/
theorem clrfbEffect : Obligations.ClrfbEffect := by
  refine fun s => ⟨by decide, ?_⟩
  show execClrfb s = _
  rw [execClrfb, State.clearFeedback_eq]
  rfl

/-- Settles O43: setting `ADM` to 1 and completing is, field by field, the state the statement writes out. -/
theorem admonEffect : Obligations.AdmonEffect := fun _ => ⟨by decide, rfl⟩

/-- Settles O44: setting `ADM` to 0 and completing is, field by field, the state the statement writes out. -/
theorem admoffEffect : Obligations.AdmoffEffect := fun _ => ⟨by decide, rfl⟩

/-- Settles O45: the check clears or only samples the clock, and its condition is the statement's. -/
theorem chkacEffect : Obligations.ChkacEffect := by
  intro s
  have hexec : exec .chkac s = .next ((checkAutoClear s).finish 0#32) := rfl
  rw [hexec]
  obtain ⟨harmed, hdue, hclear⟩ | ⟨hnot, hkeep⟩ := checkAutoClear_cases s
  · refine ⟨by decide, fun _ _ => ?_, fun hnot => absurd ⟨harmed, hdue⟩ hnot⟩
    rw [hclear, State.clearFeedback_eq, KeypadScanner.clockDrawn_eq]
    rfl
  · refine ⟨by decide, fun harmed hdue => absurd ⟨harmed, hdue⟩ hnot, fun _ => ?_⟩
    rw [hkeep, KeypadScanner.clockDrawn_eq]
    rfl

/-! ### The lines RENDER and POLL leave alone -/

/-- RENDER changes the levels of the serial lines and the enables alone (41 R127). -/
theorem renderLines_get_of_not_display (s : State) {p : Line}
    (hp : p ∉ [Line.data, .clk, .latch, .en1, .en2, .en3]) : (renderLines s).get p = s.lines.get p := by
  simp only [List.mem_cons, List.not_mem_nil, or_false, not_or] at hp
  obtain ⟨hdata, hclk, hlatch, hen1, hen2, hen3⟩ := hp
  simp [renderLines, otherLines_get, transferLines_get, enLine, hdata, hclk, hlatch, hen1, hen2, hen3]

theorem colLine_ne_adm (c : Fin 4) : colLine c ≠ .adm := by
  revert c
  decide

/-- A scan drives the column lines (42 R154), and the admin line is none of them. -/
theorem scanLines_adm (l : Lines) (n : Nat) : (scanLines l n).adm = l.adm := by
  refine (scanLines_get l n .adm).trans (if_neg fun hmem => ?_)
  obtain ⟨c, -, hc⟩ := List.mem_map.mp hmem
  exact colLine_ne_adm c hc

theorem drive_adm_notMem_scanEvents (s : State) (n : Nat) (v : Bool) : Event.drive .adm v ∉ scanEvents s n := by
  simp [scanEvents, (colLine_ne_adm _).symm]

/-- Everything a POLL can do: sample the clock, scan some number of columns, and perhaps write `LAST` (42 R160). -/
theorem exec_poll_eq_scanned (s : State) :
    ∃ (n last : Nat) (w : Word), exec .poll s = .next ({ scanState s.clockDrawn n with last := last }.finish w) := by
  by_cases hwindow : InWindow s
  · refine ⟨0, s.last, noHitWord, ?_⟩
    rw [KeypadScanner.exec_poll_of_inWindow hwindow, scanState_zero]
    rfl
  · obtain ⟨-, hscan⟩ | ⟨c, r, -, hscan⟩ := scan_cases s.clockDrawn s.now
    · exact ⟨4, s.last, _, KeypadScanner.exec_poll_of_not_inWindow hwindow hscan⟩
    · exact ⟨c.val + 1, s.now, _, KeypadScanner.exec_poll_of_not_inWindow hwindow hscan⟩

/-! ### The admin indicator -/

/-- Settles O48: in the next state of each other operation `ADM` is not written, the line changes are on other lines,
and the events drive other lines. -/
theorem onlyAdminOpsWriteAdm : Obligations.OnlyAdminOpsWriteAdm := by
  intro i s hon hoff
  cases i with
  | enc f code => exact ⟨_, _, SegmentEncoder.exec_enc f code s, rfl, rfl, rfl, fun v => by split <;> simp⟩
  | slots s0 s1 s2 s3 => exact ⟨_, [], rfl, rfl, rfl, (List.append_nil _).symm, fun v => List.not_mem_nil⟩
  | render =>
    refine ⟨_, _, DisplayMultiplexer.exec_render s, rfl, ?line, rfl, fun v hmem => ?events⟩
    case line => exact renderLines_get_of_not_display s (p := .adm) (by decide)
    case events =>
      exact DisplayMultiplexer.not_onDisplay_drive v (by decide)
        (DisplayMultiplexer.onDisplay_of_mem_renderEvents s _ hmem)
  | poll =>
    obtain ⟨n, last, w, hpoll⟩ := exec_poll_eq_scanned s
    exact ⟨_, _, hpoll, rfl, scanLines_adm s.lines n, rfl, drive_adm_notMem_scanEvents s.clockDrawn n⟩
  | fires => exact ⟨_, _, (firesEffect s).right, rfl, rfl, rfl, fun v => by simp⟩
  | firef => exact ⟨_, _, (firefEffect s).right, rfl, rfl, rfl, fun v => by simp⟩
  | clrfb => exact ⟨_, _, (clrfbEffect s).right, rfl, rfl, rfl, fun v => by simp⟩
  | chkac =>
    obtain ⟨-, hclears, hkeeps⟩ := chkacEffect s
    by_cases hdue : s.deadline ≠ 0 ∧ DeadlineDue s.cfg s.now s.deadline
    · exact ⟨_, _, hclears hdue.left hdue.right, rfl, rfl, rfl, fun v => by simp⟩
    · exact ⟨_, [], hkeeps hdue, rfl, rfl, (List.append_nil _).symm, fun v => List.not_mem_nil⟩
  | admon => exact absurd rfl hon
  | admoff => exact absurd rfl hoff

end Sys2Proof.FeedbackOutputs
end

section
/-! PROOFS. Exceptions: the block has none, so every operation completes (60 R210). -/

namespace Sys2Proof.Exceptions

open Sys2Proof.Machine Sys2Proof.Safety

/-- Settles O9: the whole next state of each operation appends one result, adds 1 to `pc`, and writes neither the stream
nor `REFUSED` nor the parameters; CHKAC's is given case by case, by whether its deadline is due. -/
theorem operationsComplete : Obligations.OperationsComplete := by
  intro i s
  cases i with
  | enc f code => exact ⟨_, _, SegmentEncoder.exec_enc f code s, rfl, rfl, rfl, rfl, rfl⟩
  | slots s0 s1 s2 s3 => exact ⟨_, 0#32, rfl, rfl, rfl, rfl, rfl, rfl⟩
  | render => exact ⟨_, _, DisplayMultiplexer.exec_render s, rfl, rfl, rfl, rfl, rfl⟩
  | poll =>
    obtain ⟨n, last, w, hpoll⟩ := FeedbackOutputs.exec_poll_eq_scanned s
    exact ⟨_, w, hpoll, rfl, rfl, rfl, rfl, rfl⟩
  | fires => exact ⟨_, _, (FeedbackOutputs.firesEffect s).right, rfl, rfl, rfl, rfl, rfl⟩
  | firef => exact ⟨_, _, (FeedbackOutputs.firefEffect s).right, rfl, rfl, rfl, rfl, rfl⟩
  | clrfb => exact ⟨_, _, (FeedbackOutputs.clrfbEffect s).right, rfl, rfl, rfl, rfl, rfl⟩
  | admon => exact ⟨_, _, (FeedbackOutputs.admonEffect s).right, rfl, rfl, rfl, rfl, rfl⟩
  | admoff => exact ⟨_, _, (FeedbackOutputs.admoffEffect s).right, rfl, rfl, rfl, rfl, rfl⟩
  | chkac =>
    obtain ⟨-, hclears, hkeeps⟩ := FeedbackOutputs.chkacEffect s
    by_cases hdue : s.deadline ≠ 0 ∧ DeadlineDue s.cfg s.now s.deadline
    · exact ⟨_, _, hclears hdue.left hdue.right, rfl, rfl, rfl, rfl, rfl⟩
    · exact ⟨_, _, hkeeps hdue, rfl, rfl, rfl, rfl, rfl⟩

end Sys2Proof.Exceptions
end

section
/-! PROOFS. Reset: the starting level of each output line and the rest of the reset state (70 R240). -/

namespace Sys2Proof.Reset

open Sys2Proof.Machine

/-- 70 R240, R241: the starting levels of the lines. The keypad's columns are active low, so they alone idle at 1. -/
theorem linesReset_get (p : Line) : Lines.reset.get p = decide (p ∈ [Line.col0, .col1, .col2, .col3]) := by
  cases p <;> rfl

/-- Settles O12: the lines by their starting levels, and each other field as `State.reset` gives it, `SR_Q` as the draw
`Config.srqAtReset`. -/
theorem resetValues : Obligations.ResetValues :=
  ⟨rfl, rfl, rfl, rfl, rfl, rfl, rfl, linesReset_get, rfl, rfl⟩

end Sys2Proof.Reset
end

section
/-! PROOFS. The command words the encoder makes, and that decoding and encoding undo each other (30 R65 to R69, R76). -/

namespace Sys2Proof.Encoding

/-! ### The words of the operations, as numbers -/

/-- The word of ENC: opcode 1, F in bit 4, CODE below it (30 R67). -/
theorem toNat_encode_enc (f : Bool) (code : Code) :
    (encode (.enc f code)).toNat = 0x01 * 2 ^ 24 + (if f then 16 else 0) + code.toNat := by
  have hoperand : (operand (.enc f code)).toNat = (if f then 1 else 0) * 2 ^ 4 + code.toNat := by
    refine (toNat_append_add (0#19 ++ BitVec.ofBool f) code).trans ?_
    cases f <;> rfl
  rw [toNat_encode, hoperand]
  cases f <;> exact (Nat.add_assoc ..).symm

/-- The word of SLOTS: opcode 2 over the four cells as one number (30 R68). -/
theorem toNat_encode_slots (s0 s1 s2 s3 : Code) :
    (encode (.slots s0 s1 s2 s3)).toNat =
      2 * 2 ^ 24 + (((s3.toNat * 2 ^ 4 + s2.toNat) * 2 ^ 4 + s1.toNat) * 2 ^ 4 + s0.toNat) := by
  rw [toNat_encode, toNat_operand_slots]
  rfl

/-- Settles O4: ENC and SLOTS are cut at their fields, and the F0 words are eight fixed ones. -/
theorem encodedFields : Obligations.EncodedFields := by
  refine ⟨toNat_encode_enc, fun s0 s1 s2 s3 => ?slots, by decide⟩
  case slots =>
    rw [toNat_encode_slots]
    ring

/-- Settles O5: five words, each decoded. -/
theorem wordsDecode : Obligations.WordsDecode := by
  unfold Obligations.WordsDecode
  decide

/-! ### Decoding after encoding -/

/-- The cells of a SLOTS word are read back one by one. -/
theorem decode_encode_slots (s0 s1 s2 s3 : Code) :
    decode (encode (.slots s0 s1 s2 s3)) = some (.slots s0 s1 s2 s3) := by
  have hsame : encode (.slots s0 s1 s2 s3) = 0x02#8 ++ 0#8 ++ s3 ++ s2 ++ s1 ++ s0 :=
    BitVec.eq_of_toNat_eq
      ((toNat_encode_slots s0 s1 s2 s3).trans (DisplayMultiplexer.toNat_slotsWord s0 s1 s2 s3).symm)
  rw [hsame, DisplayMultiplexer.decode_slotsWord]

/-- Settles O1: the 32 words of ENC and the eight of format F0 are decoded one by one, SLOTS by its cells. -/
theorem decodeOfEncode : Obligations.DecodeOfEncode := by
  intro i
  cases i with
  | enc f code => revert f code; decide
  | slots s0 s1 s2 s3 => exact decode_encode_slots s0 s1 s2 s3
  | render | poll | fires | firef | clrfb | admon | admoff | chkac => decide

/-! ### Encoding after decoding -/

/-- The F0 operation of row `n` is encoded as the opcode `n + 3` over an operand of 0 (30 R66, R69). -/
theorem toNat_encode_of_f0Instrs {n : Nat} {i : Instr} (h : f0Instrs[n]? = some i) :
    (encode i).toNat = (n + 3) * 2 ^ 24 := by
  have hrow : ∀ m : Fin f0Instrs.length, (encode f0Instrs[m]).toNat = (m.val + 3) * 2 ^ 24 := by decide
  obtain ⟨hlt, rfl⟩ := List.getElem?_eq_some_iff.mp h
  exact hrow ⟨n, hlt⟩

/-- The operand of an FE word is its flag and its code (30 R67). -/
theorem flag_add_code {n : Nat} (h : n / 2 ^ 5 = 0) :
    (if decide (n / 16 % 2 = 1) then 16 else 0) + (BitVec.ofNat 4 n).toNat = n := by
  simp only [decide_eq_true_eq, BitVec.toNat_ofNat]
  split <;> omega

/-- The operand of an FS word is its four cells (30 R68). -/
theorem cells_eq {n : Nat} (h : n / 2 ^ 16 = 0) :
    (((BitVec.ofNat 4 (n / 4096)).toNat * 2 ^ 4 + (BitVec.ofNat 4 (n / 256)).toNat) * 2 ^ 4 +
      (BitVec.ofNat 4 (n / 16)).toNat) * 2 ^ 4 + (BitVec.ofNat 4 n).toNat = n := by
  simp only [BitVec.toNat_ofNat]
  omega

/-- Settles O2: by the opcode range of the word; in each the fields the decoder reads make up the whole operand. -/
theorem encodeOfDecode : Obligations.EncodeOfDecode := by
  intro w i h
  apply BitVec.eq_of_toNat_eq
  rw [← Nat.div_add_mod' w.toNat (2 ^ 24)]
  obtain hop | hop | hop | hop : w.toNat / 2 ^ 24 = 0 ∨ w.toNat / 2 ^ 24 = 1 ∨ w.toNat / 2 ^ 24 = 2 ∨
      3 ≤ w.toNat / 2 ^ 24 := by omega
  · simp [decode_of_op_eq_zero hop] at h
  · rw [decode_of_op_eq_one hop, Option.ite_none_right_eq_some] at h
    obtain ⟨hres, hi⟩ := h
    rw [← Option.some.inj hi, toNat_encode_enc, Nat.add_assoc, flag_add_code hres, hop]
  · rw [decode_of_op_eq_two hop, Option.ite_none_right_eq_some] at h
    obtain ⟨hres, hi⟩ := h
    rw [← Option.some.inj hi, toNat_encode_slots, cells_eq hres, hop]
  · rw [decode_of_three_le_op hop, Option.ite_none_right_eq_some] at h
    obtain ⟨hres, hrow⟩ := h
    rw [toNat_encode_of_f0Instrs hrow, hres, Nat.sub_add_cancel hop, Nat.add_zero]

end Sys2Proof.Encoding
end

section
/-! PROOFS. The command stream: one step, what a step can do, and a run to its end or to the word that stops it (10
section 7, 60 R210 to R231). -/

namespace Sys2Proof.CommandStream

open Sys2Proof.Machine

/-! ### One step -/

/-- Settles O6: the word and its decoding pick the branch of `step`. -/
theorem stepRunsDecoded : Obligations.StepRunsDecoded := by
  intro s w i hrun hword hdecode
  rw [step, State.fetch, hword]
  simp only [hrun, hdecode, Bool.false_eq_true, if_false]

/-- Settles O7: the first step takes the branch of a word that spells nothing, the second that of a stopped run. -/
theorem refusedWordStopsRun : Obligations.RefusedWordStopsRun := by
  intro s w hword hdecode
  refine ⟨fun hrun => ?_, rfl⟩
  rw [step, State.fetch, hword]
  simp only [hrun, hdecode, Bool.false_eq_true, if_false]
  rfl

/-- Settles O8: past its end the stream has no word to fetch. -/
theorem stepWithoutWordHolds : Obligations.StepWithoutWordHolds := by
  intro s hrun hend
  rw [step, State.fetch, List.getElem?_eq_none hend]
  simp only [hrun, Bool.false_eq_true, if_false]

/-- Everything a step that does not stop the run can do (10 R37): hold, refuse a word, or perform an operation. -/
theorem step_cases {s t : State} (h : step s = .next t) : t = s ∨ t = s.refuse ∨ ∃ i, exec i s = .next t := by
  unfold step at h
  split at h
  case isTrue => exact nomatch h
  case isFalse =>
    split at h
    case h_1 => exact .inl (Host.Outcome.next.inj h).symm
    case h_2 =>
      split at h
      case h_1 => exact .inr (.inl (Host.Outcome.next.inj h).symm)
      case h_2 i _ => exact .inr (.inr ⟨i, h⟩)

/-- What each operation keeps and the refusal of a word keeps is kept by every step. -/
theorem step_keeps {P : State → Prop} (hrefuse : ∀ s, P s → P s.refuse)
    (hexec : ∀ i s t, P s → exec i s = .next t → P t) {s t : State} (hs : P s) (h : step s = .next t) : P t := by
  obtain rfl | rfl | ⟨i, hi⟩ := step_cases h
  · exact hs
  · exact hrefuse s hs
  · exact hexec i s t hs hi

/-! ### One operation and a list of operations -/

/-- An operation has one next state. -/
theorem exec_unique {i : Instr} {s t u : State} (ht : exec i s = .next t) (hu : exec i s = .next u) : t = u :=
  Host.Outcome.next.inj (ht.symm.trans hu)

/-- What an operation's next state is sure to hold (60 R210, 10 R39). -/
theorem exec_next {i : Instr} {s t : State} (h : exec i s = .next t) :
    t.pc = s.pc + 1 ∧ (∃ r, t.results = s.results ++ [r]) ∧ t.prog = s.prog ∧ t.refused = s.refused ∧ t.cfg = s.cfg := by
  obtain ⟨t', r, ht', hpc, hresults, hrest⟩ := Exceptions.operationsComplete i s
  obtain rfl := exec_unique h ht'
  exact ⟨hpc, ⟨r, hresults⟩, hrest⟩

theorem execAll_cons_of_exec {i : Instr} {s t : State} (h : exec i s = .next t) (is : List Instr) :
    execAll (i :: is) s = execAll is t := by
  rw [execAll, h]

/-- Every list of operations completes (60 R210). -/
theorem execAll_completes (is : List Instr) (s : State) : ∃ t, execAll is s = .next t := by
  induction is generalizing s with
  | nil => exact ⟨s, rfl⟩
  | cons i is ih =>
    obtain ⟨s', -, hi, -⟩ := Exceptions.operationsComplete i s
    rw [execAll_cons_of_exec hi]
    exact ih s'

/-- What each operation of a list keeps is kept by the whole list. -/
theorem execAll_keeps {P : State → Prop} {is : List Instr}
    (hexec : ∀ i ∈ is, ∀ s t, P s → exec i s = .next t → P t) {s t : State} (hs : P s)
    (h : execAll is s = .next t) : P t := by
  induction is generalizing s with
  | nil => exact Host.Outcome.next.inj h ▸ hs
  | cons i is ih =>
    obtain ⟨s', -, hi, -⟩ := Exceptions.operationsComplete i s
    rw [execAll_cons_of_exec hi] at h
    exact ih (fun j hj => hexec j (List.mem_cons_of_mem i hj)) (hexec i List.mem_cons_self s s' hs hi) h

/-- Settles O59: a refusal writes neither, and no operation does. -/
theorem stepKeepsStream : Obligations.StepKeepsStream := by
  intro s t h
  refine step_keeps (P := fun u => u.cfg = s.cfg ∧ u.prog = s.prog) (fun _ hu => hu) (fun i u v hu hi => ?_)
    ⟨rfl, rfl⟩ h
  obtain ⟨-, -, hprog, -, hcfg⟩ := exec_next hi
  exact ⟨hcfg.trans hu.1, hprog.trans hu.2⟩

/-! ### Runs -/

theorem run_succ_of_step {s t : State} (h : step s = .next t) (n : Nat) : core.run (n + 1) s = core.run n t :=
  (Host.Core.run.eq_2 core s n).trans (by rw [show core.step s = .next t from h])

theorem run_succ_of_stopped {s : State} {r : Refusal} (h : step s = .refused r) (n : Nat) :
    core.run (n + 1) s = .refused r :=
  (Host.Core.run.eq_2 core s n).trans (by rw [show core.step s = .refused r from h])

/-- The next `m` words stand in the stream and spell operations. -/
def NextSpell (s : State) (m : Nat) : Prop := ∀ k < m, ∃ v, s.prog[s.pc + k]? = some v ∧ (decode v).isSome = true

/-- Words that spell operations are all performed, one result each, and the run goes on from there (10 R37, R39,
30 R75). -/
theorem run_of_nextSpell (m : Nat) (s : State) (hrun : s.refused = false) (hspell : NextSpell s m) :
    ∃ t : State, (∀ n, core.run (m + n) s = core.run n t) ∧ t.pc = s.pc + m ∧ t.refused = false ∧ t.prog = s.prog ∧
      ∃ rs : List Word, rs.length = m ∧ t.results = s.results ++ rs := by
  induction m with
  | zero => exact ⟨s, fun n => by rw [Nat.zero_add], rfl, hrun, rfl, [], rfl, (List.append_nil _).symm⟩
  | succ m ih =>
    obtain ⟨t, ht, hpc, href, hprog, rs, hlen, hresults⟩ := ih fun k hk => hspell k (Nat.lt_succ_of_lt hk)
    obtain ⟨v, hv, hsome⟩ := hspell m (Nat.lt_succ_self m)
    obtain ⟨i, hi⟩ := Option.isSome_iff_exists.mp hsome
    have hstep : step t = exec i t := stepRunsDecoded t v i href (by rw [hprog, hpc, hv]) hi
    obtain ⟨u, r, hu, hupc, huresults, huprog, huref, -⟩ := Exceptions.operationsComplete i t
    refine ⟨u, ?run, ?pc, huref.trans href, huprog.trans hprog, rs ++ [r], ?length, ?results⟩
    case run =>
      intro n
      rw [Nat.add_right_comm, Nat.add_assoc, ht, run_succ_of_step (hstep.trans hu)]
    case pc => rw [hupc, hpc, Nat.add_assoc]
    case length => rw [List.length_append, hlen, List.length_singleton]
    case results => rw [huresults, hresults, List.append_assoc]

/-- Settles O10: all remaining words are performed, which brings `pc` to the end of the stream. -/
theorem runReachesEnd : Obligations.RunReachesEnd := by
  intro s hrun hpc hwords
  have hspell : NextSpell s (s.prog.length - s.pc) := fun k hk =>
    have hlt : s.pc + k < s.prog.length := by omega
    ⟨s.prog[s.pc + k], List.getElem?_eq_getElem hlt,
      hwords _ (List.mem_drop_iff_getElem.mpr ⟨k, by omega, rfl⟩)⟩
  obtain ⟨t, ht, htpc, href, hprog, hresults⟩ := run_of_nextSpell _ s hrun hspell
  refine ⟨t, ht 0, ?_, hprog, hresults⟩
  rw [State.succeeded, htpc, hprog, href, Nat.add_sub_cancel' hpc]
  simp

/-- Settles O11: the words before the bad one are performed, its own step refuses it, and every step from there is
refused. -/
theorem runStopsAtRefusedWord : Obligations.RunStopsAtRefusedWord := by
  intro s m w hrun hbad hdecode hwords
  have hend : s.pc + m < s.prog.length := (List.getElem?_eq_some_iff.mp hbad).1
  have hspell : NextSpell s m := fun k hk =>
    have hget := List.getElem?_eq_getElem (show s.pc + k < s.prog.length by omega)
    ⟨_, hget, hwords k hk _ hget⟩
  obtain ⟨t, ht, htpc, href, hprog, -⟩ := run_of_nextSpell m s hrun hspell
  obtain ⟨hrefuse, hstopped⟩ := refusedWordStopsRun t w (by rw [hprog, htpc, hbad]) hdecode
  have hrest (n : Nat) : core.run (m + (n + 1)) s = core.run n { t with refused := true } := by
    rw [ht, run_succ_of_step (hrefuse href)]
  refine ⟨t, ht 0, htpc, href, hrest 0, fun k => ?_⟩
  rw [Nat.add_right_comm, Nat.add_assoc, hrest, run_succ_of_stopped hstopped]

end Sys2Proof.CommandStream
end

section
/-! PROOFS. Line drives and serial transfers, acted out on the pins (10 R29, 41 R128, R130), and what holds at each point
of a trace. -/

namespace Sys2Proof.SerialTransfer

open Sys2Proof.Machine Sys2Proof.Safety

/-! ### Drives and transfers -/

/-- Settles O46: the rule of the line levels. -/
theorem driveSetsOneLine : Obligations.DriveSetsOneLine := Lines.get_set

/-- Settles O20: in the byte-level form a transfer touches no line and is one event. -/
theorem transferLatchesByte : Obligations.TransferLatchesByte := by
  intro s b hserial
  have hstate : s.shiftLatch b = { s with srq := b, trace := s.trace ++ [.shift b] } := by
    rw [State.shiftLatch_eq, transferLines, shiftEvents, hserial]
  exact ⟨hstate, fun i _ => by rw [hstate]⟩

/-- Settles O21: the events are `serialDrives`' in order, and the levels are those it leaves. -/
theorem transferLineByLine : Obligations.TransferLineByLine := by
  intro s b hserial
  refine ⟨transferLines s.cfg s.lines b, ?state, fun p => ?levels⟩
  case state =>
    simp only [State.shiftLatch_eq, shiftEvents, hserial, List.append_assoc]
    rfl
  case levels => rw [transferLines_get, if_pos hserial]

/-! ### The outputs during a transfer -/

/-- Drives that do not raise the latch leave the outputs as they are (93 G6). -/
theorem srq_after_drives {ds : List (Line × Bool)} (h : (Line.latch, true) ∉ ds) (p : Pins) :
    (p.after (ds.map fun d => .drive d.1 d.2)).srq = p.srq := by
  induction ds generalizing p with
  | nil => rfl
  | cons d ds ih =>
    obtain ⟨hd, hds⟩ := not_or.mp (mt List.mem_cons.mpr h)
    rw [List.map_cons, Pins.after_cons, ih hds]
    obtain ⟨l, v⟩ := d
    cases v with
    | true => exact Pins.apply_srq_drive p l true fun hl => hd (by rw [hl])
    | false => cases l <;> rfl

/-- A transfer raises the latch with its last drive only (41 R130). -/
theorem latch_notMem_take_serialDrives {b : Byte} {n : Nat} (hn : n < (serialDrives b).length) :
    (Line.latch, true) ∉ (serialDrives b).take n := by
  unfold serialDrives at *
  rw [List.take_append_of_le_length (by simp at hn ⊢; omega)]
  refine fun hmem => absurd (List.mem_of_mem_take hmem) ?_
  simp

/-- Settles O22: the latch rises with the last drive, and then the stage holds the byte's eight bits. -/
theorem serialDrivesReachOutputs : Obligations.SerialDrivesReachOutputs := by
  intro p b hclk
  refine ⟨congrArg Pins.srq (after_serialDrives p b hclk), fun n hn => ?_⟩
  rw [← List.map_take, srq_after_drives]
  exact latch_notMem_take_serialDrives (by simpa using hn)

/-! ### Every point of a trace -/

/-- `P` holds of the pins before the events, between any two of them and after them. -/
def AtEachPoint (P : Pins → Prop) (p : Pins) (es : List Event) : Prop := ∀ n, P (p.after (es.take n))

@[simp] theorem atEachPoint_nil {P : Pins → Prop} {p : Pins} : AtEachPoint P p [] ↔ P p := by
  simp [AtEachPoint]

@[simp] theorem atEachPoint_cons {P : Pins → Prop} {p : Pins} {e : Event} {es : List Event} :
    AtEachPoint P p (e :: es) ↔ P p ∧ AtEachPoint P (p.apply e) es := by
  refine ⟨fun h => ⟨h 0, fun n => h (n + 1)⟩, fun ⟨h0, h⟩ n => ?_⟩
  cases n with
  | zero => exact h0
  | succ n => exact h n

theorem AtEachPoint.start {P : Pins → Prop} {p : Pins} {es : List Event} (h : AtEachPoint P p es) : P p := h 0

theorem AtEachPoint.finish {P : Pins → Prop} {p : Pins} {es : List Event} (h : AtEachPoint P p es) :
    P (p.after es) := by
  simpa using h es.length

theorem atEachPoint_append {P : Pins → Prop} {p : Pins} {es fs : List Event} :
    AtEachPoint P p (es ++ fs) ↔ AtEachPoint P p es ∧ AtEachPoint P (p.after es) fs := by
  induction es generalizing p with
  | nil => simpa using fun h => h.start
  | cons e es ih =>
    rw [List.cons_append, atEachPoint_cons, ih, atEachPoint_cons, Pins.after_cons, and_assoc]

theorem AtEachPoint.mono {P Q : Pins → Prop} (hPQ : ∀ p, P p → Q p) {p : Pins} {es : List Event}
    (h : AtEachPoint P p es) : AtEachPoint Q p es := fun n => hPQ _ (h n)

/-! ### Which positions may be enabled -/

/-- Only positions in `A` are enabled (10 R30). -/
def EnabledOnly (A : Fin 4 → Prop) (p : Pins) : Prop := ∀ k, posEnabled p.lines p.srq k = true → A k

theorem EnabledOnly.mono {A B : Fin 4 → Prop} (hAB : ∀ k, A k → B k) {p : Pins} (h : EnabledOnly A p) :
    EnabledOnly B p := fun k hk => hAB k (h k hk)

/-- After a transfer position 0 is enabled as bit 7 of the byte says, and the others as before. -/
theorem enabledOnly_after_shiftEvents {A : Fin 4 → Prop} {p : Pins} (c : Params) {b : Byte}
    (hclk : p.lines.clk = false) (h0 : b.getLsbD 7 = true → A 0)
    (h : ∀ k, k ≠ 0 → posEnabled p.lines p.srq k = true → A k) :
    EnabledOnly A (p.after (shiftEvents c b)) := by
  intro k hk
  obtain ⟨hlines, hsrq⟩ := after_shiftEvents c p b hclk
  rw [hlines, hsrq, posEnabled_transferLines] at hk
  by_cases hk0 : k = 0
  · subst hk0
    exact h0 hk
  · refine h k hk0 ?_
    match k, hk0 with
    | 1, _ | 2, _ | 3, _ => exact hk

/-- A transfer enables no position but position 0, and that only by bit 7 of its byte. -/
theorem atEachPoint_shiftEvents {A : Fin 4 → Prop} {p : Pins} (c : Params) {b : Byte}
    (hclk : p.lines.clk = false) (h0 : b.getLsbD 7 = true → A 0) (h : EnabledOnly A p) :
    AtEachPoint (EnabledOnly A) p (shiftEvents c b) := by
  intro n
  by_cases hn : n < (shiftEvents c b).length
  · intro k hk
    rw [within_shiftEvents c p b n hn k] at hk
    exact h k hk
  · rw [List.take_of_length_le (Nat.le_of_not_lt hn)]
    exact enabledOnly_after_shiftEvents c hclk h0 fun k _ => h k

end Sys2Proof.SerialTransfer
end

section
/-! PROOFS. RENDER's end state, and what the display shows at each point of its trace (41 R126 to R133, 20 R56). -/

namespace Sys2Proof.Render

open Sys2Proof.Machine Sys2Proof.Safety Sys2Proof.SerialTransfer

/-! ### The state RENDER leaves -/

theorem enLine_ne_serial (k : Fin 4) (hk : k ≠ 0) : enLine k ∉ [Line.data, .clk, .latch] := by
  revert k
  decide

/-- A position from 1 to 3 leaves `DATA` at bit 0 of its byte where it transfers one line by line. -/
theorem otherLines_data {s : State} {k : Fin 4} (hk : k ≠ 0) (hserial : s.cfg.serial = .lineLevel) (l : Lines) :
    (otherLines s k l).get .data =
      if maskOf (posMask s k) = blankSeg then l.get .data else (posMask s k).getLsbD 0 := by
  have hne : Line.data ≠ enLine k := fun h => enLine_ne_serial k hk (h ▸ by decide)
  rw [otherLines_get, if_neg hne, transferLines_get, if_pos hserial]
  rfl

/-- After the last transfer `DATA` is bit 0 of its byte (41 R126, R130). -/
theorem renderLines_data {s : State} (hserial : s.cfg.serial = .lineLevel) :
    (renderLines s).get .data = (lastByte s).getLsbD 0 := by
  have hfirst : (transferLines s.cfg (transferLines s.cfg s.lines (posMask s 0))
      (segByte false (maskOf (posMask s 0)))).get .data = (segByte false (maskOf (posMask s 0))).getLsbD 0 := by
    rw [transferLines_get, if_pos hserial]
    rfl
  rw [renderLines, otherLines_data (by decide) hserial, otherLines_data (by decide) hserial,
    otherLines_data (by decide) hserial, hfirst, ← lastByte_eq]
  simp only [apply_ite (BitVec.getLsbD · 0)]

/-- The level of every line after a RENDER (41 R126, R130). -/
theorem renderLines_get (s : State) (p : Line) :
    (renderLines s).get p =
      match p with
      | .en1 => false
      | .en2 => false
      | .en3 => false
      | .data => if s.cfg.serial = .lineLevel then (lastByte s).getLsbD 0 else s.lines.data
      | .clk => if s.cfg.serial = .lineLevel then false else s.lines.clk
      | .latch => if s.cfg.serial = .lineLevel then true else s.lines.latch
      | q => s.lines.get q := by
  cases p with
  | en1 | en2 | en3 => exact DisplayMultiplexer.renderLines_get_enable s (by decide)
  | data =>
    by_cases hserial : s.cfg.serial = .lineLevel
    · rw [renderLines_data hserial]
      exact (if_pos hserial).symm
    · rw [if_neg hserial, show s.lines.data = s.lines.get .data from rfl]
      simp [renderLines, otherLines_get, transferLines_get, enLine, hserial]
  | clk =>
    rw [show s.lines.clk = s.lines.get .clk from rfl]
    by_cases hserial : s.cfg.serial = .lineLevel <;>
      simp [renderLines, otherLines_get, transferLines_get, enLine, hserial]
  | latch =>
    rw [show s.lines.latch = s.lines.get .latch from rfl]
    by_cases hserial : s.cfg.serial = .lineLevel <;>
      simp [renderLines, otherLines_get, transferLines_get, enLine, hserial]
  | col0 | col1 | col2 | col3 | succ | fail | adm =>
    exact FeedbackOutputs.renderLines_get_of_not_display s (by decide)

/-- Settles O24: RENDER as one change of the state, with its lines level by level. -/
theorem renderEndState : Obligations.RenderEndState := fun s =>
  ⟨renderLines s, DisplayMultiplexer.exec_render s, lastByte_seven s, renderLines_get s⟩

/-- Rendering again the same slots, with the same draws, sets no level that is not set already. -/
theorem renderLines_again {s t : State} (hslots : t.dslot = s.dslot) (hmasks : t.masks = s.masks)
    (hcfg : t.cfg = s.cfg) (hlines : t.lines = renderLines s) : renderLines t = t.lines := by
  refine Lines.ext_get fun p => ?_
  have hbyte := DisplayMultiplexer.lastByte_congr hslots hmasks
  have hlevel := renderLines_get s p
  rw [← hlines] at hlevel
  rw [renderLines_get, hbyte, hcfg]
  cases p with
  | en1 | en2 | en3 => exact hlevel.symm
  | data | clk | latch =>
    dsimp only at hlevel ⊢
    split
    case isTrue hserial => rw [hlevel, if_pos hserial]
    case isFalse => rfl
  | col0 | col1 | col2 | col3 | succ | fail | adm => rfl

/-- Settles O29: valid codes draw no mask, so the second RENDER sees what the first saw. -/
theorem renderRepeats : Obligations.RenderRepeats := by
  intro s t hvalid h
  have ht := CommandStream.exec_unique (DisplayMultiplexer.exec_render s) h
  have hdraws : s.dslot.toList.countP isInvalid = 0 := by
    rw [invalidCount]
    simp only [drawsAt, hvalid, Bool.false_eq_true, if_false]
  have hslots : t.dslot = s.dslot := by rw [← ht]
  have hmasks : t.masks = s.masks := by rw [← ht, hdraws, drawnBy_zero]
  have hcfg : t.cfg = s.cfg := by rw [← ht]
  refine ⟨_, renderEvents s, DisplayMultiplexer.exec_render t, renderLines_again hslots hmasks hcfg (by rw [← ht]),
    ?srq, hslots, by rw [← ht], ?events⟩
  case srq => exact (DisplayMultiplexer.lastByte_congr hslots hmasks).trans (by rw [← ht])
  case events => rw [DisplayMultiplexer.renderEvents_congr hslots hmasks hcfg]

end Sys2Proof.Render
end

section
/-! PROOFS. The display at each point of a RENDER: one position at a time, each shown, and no invalid code on position 0
after its turn (41 R131, R133). -/

namespace Sys2Proof.RenderTrace

open Sys2Proof.Machine Sys2Proof.Safety Sys2Proof.SerialTransfer

/-! ### What the events of a position leave on the pins -/

theorem after_posReport (s : State) (k : Fin 4) (p : Pins) : p.after (posReport s k) = p := by
  unfold posReport
  split <;> rfl

@[simp] theorem apply_settle (p : Pins) : p.apply .settle = p := rfl

/-- Acting out the drive of an enable line. -/
theorem apply_enLine {k : Fin 4} (hk : k ≠ 0) (p : Pins) (v : Bool) :
    p.apply (.drive (enLine k) v) = { p with lines := p.lines.set (enLine k) v } := by
  match k, hk with
  | 1, _ | 2, _ | 3, _ => rfl

/-- Position 0 leaves its mask with the enable bit cleared on the outputs (41 R123). -/
theorem after_firstEvents (s : State) {p : Pins} (hclk : p.lines.clk = false) :
    (p.after (firstEvents s)).lines =
        transferLines s.cfg (transferLines s.cfg p.lines (posMask s 0)) (segByte false (maskOf (posMask s 0))) ∧
      (p.after (firstEvents s)).srq = segByte false (maskOf (posMask s 0)) := by
  obtain ⟨hlines, -⟩ := after_shiftEvents s.cfg p (posMask s 0) hclk
  have hlow : (p.after (shiftEvents s.cfg (posMask s 0))).lines.clk = false := by
    rw [hlines]
    exact transferLines_clk _ _ _ hclk
  rw [firstEvents, Pins.after_append, Pins.after_append, Pins.after_append, after_posReport, Pins.after_cons,
    Pins.after_nil, apply_settle, ← hlines]
  exact after_shiftEvents s.cfg _ _ hlow

/-- A position from 1 to 3 leaves its lines and, unless it is blank, its byte (41 R124). -/
theorem after_otherEvents (s : State) {k : Fin 4} (hk : k ≠ 0) {p : Pins} (hclk : p.lines.clk = false) :
    (p.after (otherEvents s k)).lines = otherLines s k p.lines ∧
      (p.after (otherEvents s k)).srq = if maskOf (posMask s k) = blankSeg then p.srq else posMask s k := by
  rw [otherEvents, Pins.after_append, after_posReport, otherLines]
  split
  case isTrue =>
    rw [Pins.after_cons, Pins.after_nil, apply_enLine hk]
    exact ⟨rfl, rfl⟩
  case isFalse =>
    obtain ⟨hlines, hsrq⟩ := after_shiftEvents s.cfg p (posMask s k) hclk
    rw [Pins.after_append]
    simp only [Pins.after_cons, Pins.after_nil, apply_settle, apply_enLine hk, hlines, hsrq, and_self]

theorem firstEvents_clk (s : State) {p : Pins} (hclk : p.lines.clk = false) :
    (p.after (firstEvents s)).lines.clk = false := by
  rw [(after_firstEvents s hclk).1]
  exact transferLines_clk _ _ _ (transferLines_clk _ _ _ hclk)

theorem otherEvents_clk (s : State) {k : Fin 4} (hk : k ≠ 0) {p : Pins} (hclk : p.lines.clk = false) :
    (p.after (otherEvents s k)).lines.clk = false := by
  have hne : Line.clk ≠ enLine k := fun h => Render.enLine_ne_serial k hk (h ▸ by decide)
  rw [(after_otherEvents s hk hclk).1]
  show (otherLines s k p.lines).get .clk = false
  rw [otherLines_get, if_neg hne]
  split
  case isTrue => exact hclk
  case isFalse => exact transferLines_clk _ _ _ hclk

/-- A RENDER's trace, acted out from a low serial clock, gives the lines and the outputs it leaves. -/
theorem after_renderEvents (s : State) (stage : Byte) (hclk : s.lines.clk = false) :
    ((s.pinsWith stage).after (renderEvents s)).lines = renderLines s ∧
      ((s.pinsWith stage).after (renderEvents s)).srq = lastByte s := by
  have h0 := firstEvents_clk s (p := s.pinsWith stage) hclk
  have h1 := otherEvents_clk s (k := 1) (by decide) h0
  have h2 := otherEvents_clk s (k := 2) (by decide) h1
  obtain ⟨l0, q0⟩ := after_firstEvents s (p := s.pinsWith stage) hclk
  obtain ⟨l1, q1⟩ := after_otherEvents s (k := 1) (by decide) h0
  obtain ⟨l2, q2⟩ := after_otherEvents s (k := 2) (by decide) h1
  obtain ⟨l3, q3⟩ := after_otherEvents s (k := 3) (by decide) h2
  rw [renderEvents, Pins.after_append, Pins.after_append, Pins.after_append, l3, l2, l1, l0, q3, q2, q1, q0]
  exact ⟨rfl, lastByte_eq s⟩

/-! ### Which positions a RENDER enables -/

theorem posEnabled_set_enLine {k : Fin 4} (hk : k ≠ 0) (l : Lines) (v : Bool) (q : Byte) (j : Fin 4) :
    posEnabled (l.set (enLine k) v) q j = if j = k then v else posEnabled l q j := by
  match k, hk with
  | 1, _ | 2, _ | 3, _ =>
    match j with
    | 0 | 1 | 2 | 3 => rfl

section
variable {A : Fin 4 → Prop} {p : Pins}

theorem atEachPoint_posReport (s : State) (k : Fin 4) (h : EnabledOnly A p) :
    AtEachPoint (EnabledOnly A) p (posReport s k) := by
  unfold posReport
  split
  case isTrue => simpa using ⟨h, h⟩
  case isFalse => simpa using h

/-- Position 0's events enable no other position, and leave position 0 off (41 R123). -/
theorem enabledOnly_firstEvents (s : State) (h0 : A 0) (h : EnabledOnly A p) (hclk : p.lines.clk = false) :
    AtEachPoint (EnabledOnly A) p (firstEvents s) ∧
      EnabledOnly (fun k => A k ∧ k ≠ 0) (p.after (firstEvents s)) := by
  have hshown := atEachPoint_shiftEvents s.cfg (b := posMask s 0) hclk (fun _ => h0) h
  have hlow : (p.after (shiftEvents s.cfg (posMask s 0))).lines.clk = false := by
    rw [(after_shiftEvents s.cfg p _ hclk).1]
    exact transferLines_clk _ _ _ hclk
  have hoff := getLsbD_segByte_seven false (maskOf (posMask s 0))
  constructor
  · simp only [firstEvents, atEachPoint_append, Pins.after_append, after_posReport, atEachPoint_cons, atEachPoint_nil,
      Pins.after_cons, Pins.after_nil, apply_settle]
    exact ⟨⟨⟨atEachPoint_posReport s 0 h, hshown⟩, hshown.finish, hshown.finish⟩,
      atEachPoint_shiftEvents s.cfg hlow (fun _ => h0) hshown.finish⟩
  · simp only [firstEvents, Pins.after_append, after_posReport, Pins.after_cons, Pins.after_nil, apply_settle]
    exact enabledOnly_after_shiftEvents s.cfg hlow (fun h => absurd h (by rw [hoff]; decide))
      fun k hk hen => ⟨hshown.finish k hen, hk⟩

/-- The events of a position from 1 to 3 enable no other position, and leave that one off (41 R124). -/
theorem enabledOnly_otherEvents (s : State) {k : Fin 4} (hk : k ≠ 0) (hA : A k) (h : EnabledOnly A p)
    (hclk : p.lines.clk = false) :
    AtEachPoint (EnabledOnly A) p (otherEvents s k) ∧
      EnabledOnly (fun j => A j ∧ j ≠ k) (p.after (otherEvents s k)) := by
  have hset (v : Bool) {q : Pins} (hq : EnabledOnly A q) : EnabledOnly A (q.apply (.drive (enLine k) v)) := by
    intro j hj
    rw [apply_enLine hk, posEnabled_set_enLine hk] at hj
    by_cases hjk : j = k
    · exact hjk ▸ hA
    · exact hq j (by rwa [if_neg hjk] at hj)
  have hoff {q : Pins} (hq : EnabledOnly A q) :
      EnabledOnly (fun j => A j ∧ j ≠ k) (q.apply (.drive (enLine k) false)) := by
    refine fun j hj => ⟨hset false hq j hj, fun hjk => ?_⟩
    rw [apply_enLine hk, posEnabled_set_enLine hk, if_pos hjk] at hj
    cases hj
  have hshown := atEachPoint_shiftEvents s.cfg (b := posMask s k) hclk
    (fun h7 => absurd h7 (by rw [posMask_seven s k hk]; decide)) h
  rw [otherEvents, atEachPoint_append, Pins.after_append, after_posReport]
  split
  case isTrue =>
    simp only [atEachPoint_cons, atEachPoint_nil, Pins.after_cons, Pins.after_nil]
    exact ⟨⟨atEachPoint_posReport s k h, h, hset false h⟩, hoff h⟩
  case isFalse =>
    have hon := hset true hshown.finish
    simp only [atEachPoint_append, atEachPoint_cons, atEachPoint_nil, Pins.after_append, Pins.after_cons,
      Pins.after_nil, apply_settle]
    exact ⟨⟨atEachPoint_posReport s k h, hshown, hshown.finish, hon, hon, hset false hon⟩, hoff hon⟩

end

/-- The events of positions 1 to 3 (41 R124, R125). -/
def restEvents (s : State) : List Event := otherEvents s 1 ++ otherEvents s 2 ++ otherEvents s 3

theorem renderEvents_eq (s : State) : renderEvents s = firstEvents s ++ restEvents s := by
  simp only [renderEvents, restEvents, List.append_assoc]

/-- What each position from 1 to 3 keeps, and what holds during each, holds during all three. -/
theorem atEachPoint_restEvents {P I : Pins → Prop} (s : State)
    (h : ∀ k, k ≠ 0 → ∀ q, I q → AtEachPoint P q (otherEvents s k) ∧ I (q.after (otherEvents s k))) {p : Pins}
    (hp : I p) : AtEachPoint P p (restEvents s) := by
  obtain ⟨h1, i1⟩ := h 1 (by decide) p hp
  obtain ⟨h2, i2⟩ := h 2 (by decide) _ i1
  obtain ⟨h3, -⟩ := h 3 (by decide) _ i2
  rw [restEvents, atEachPoint_append, atEachPoint_append, Pins.after_append]
  exact ⟨⟨h1, h2⟩, h3⟩

theorem atMostOneEnabled_of_enabledOnly {k : Fin 4} (p : Pins) (h : EnabledOnly (· = k) p) :
    AtMostOneEnabled p.lines p.srq := fun i j hi hj => (h i hi).trans (h j hj).symm

/-- Settles O26: each position's events start and end with every position off and enable that one alone. -/
theorem renderEnablesOnePosition : Obligations.RenderEnablesOnePosition := by
  intro s hdark hclk
  refine ⟨_, renderEvents s, DisplayMultiplexer.exec_render s, rfl, fun stage => ?_⟩
  show AtEachPoint (fun p => AtMostOneEnabled p.lines p.srq) (s.pinsWith stage) (renderEvents s)
  have hnone : EnabledOnly (fun _ => False) (s.pinsWith stage) := fun k hk => by
    rw [State.pinsWith, hdark k] at hk
    cases hk
  obtain ⟨hfirst, hend⟩ := enabledOnly_firstEvents s (A := (· = 0)) rfl (hnone.mono fun _ => False.elim) hclk
  rw [renderEvents_eq, atEachPoint_append]
  refine ⟨hfirst.mono atMostOneEnabled_of_enabledOnly,
    atEachPoint_restEvents s (I := fun q => EnabledOnly (fun _ => False) q ∧ q.lines.clk = false)
      (fun k hk q ⟨hq, hqclk⟩ => ?_) ⟨hend.mono fun _ h => h.2 h.1, firstEvents_clk s hclk⟩⟩
  obtain ⟨hpoints, hq'⟩ := enabledOnly_otherEvents s hk (A := (· = k)) rfl (hq.mono fun _ => False.elim) hqclk
  exact ⟨hpoints.mono atMostOneEnabled_of_enabledOnly, hq'.mono fun _ h => h.2 h.1, otherEvents_clk s hk hqclk⟩

/-! ### What a RENDER shows -/

/-- A byte's segments are lit at an enabled position where its bits are 0 (10 R30). -/
theorem segLit_of_enabled {l : Lines} {q : Byte} {p : Fin 4} (h : posEnabled l q p = true) (k : Fin 7) :
    segLit l q p k = !q.getLsbD k.val := by
  rw [segLit, h, Bool.true_and]

/-- Position `k` from 1 to 3 has its events in the trace, and the serial clock is low when they begin. -/
theorem renderEvents_split (s : State) {k : Fin 4} (hk : k ≠ 0) :
    ∃ before later, renderEvents s = before ++ otherEvents s k ++ later ∧
      ∀ p : Pins, p.lines.clk = false → (p.after before).lines.clk = false := by
  match k, hk with
  | 1, _ =>
    exact ⟨firstEvents s, otherEvents s 2 ++ otherEvents s 3, by simp only [renderEvents, List.append_assoc],
      fun p => firstEvents_clk s⟩
  | 2, _ =>
    refine ⟨firstEvents s ++ otherEvents s 1, otherEvents s 3, by simp only [renderEvents, List.append_assoc],
      fun p hclk => ?_⟩
    rw [Pins.after_append]
    exact otherEvents_clk s (by decide) (firstEvents_clk s hclk)
  | 3, _ =>
    refine ⟨firstEvents s ++ otherEvents s 1 ++ otherEvents s 2, [], by simp only [renderEvents, List.append_nil],
      fun p hclk => ?_⟩
    rw [Pins.after_append, Pins.after_append]
    exact otherEvents_clk s (by decide) (otherEvents_clk s (by decide) (firstEvents_clk s hclk))

/-- At its settle delay position 0 shows its mask, if the mask enables it (41 R123, R131). -/
theorem shows_first (s : State) (h7 : (posMask s 0).getLsbD 7 = true) :
    ∃ before later, renderEvents s = before ++ .settle :: later ∧
      ∀ p : Pins, p.lines.clk = false → ∀ k : Fin 7,
        segLit (p.after before).lines (p.after before).srq 0 k = !(posMask s 0).getLsbD k.val := by
  refine ⟨posReport s 0 ++ shiftEvents s.cfg (posMask s 0),
    shiftEvents s.cfg (segByte false (maskOf (posMask s 0))) ++ restEvents s,
    by simp only [renderEvents_eq, firstEvents, List.append_assoc, List.cons_append, List.nil_append],
    fun p hclk k => ?_⟩
  obtain ⟨-, hsrq⟩ := after_shiftEvents s.cfg p (posMask s 0) hclk
  rw [Pins.after_append, after_posReport, hsrq]
  refine segLit_of_enabled ?_ k
  exact h7

/-- At its settle delay a position from 1 to 3 that is not blank shows its mask (41 R124, R131). -/
theorem shows_other (s : State) {j : Fin 4} (hj : j ≠ 0) (hshown : maskOf (posMask s j) ≠ blankSeg) :
    ∃ before later, renderEvents s = before ++ .settle :: later ∧
      ∀ p : Pins, p.lines.clk = false → ∀ k : Fin 7,
        segLit (p.after before).lines (p.after before).srq j k = !(posMask s j).getLsbD k.val := by
  obtain ⟨before, later, hsplit, hlow⟩ := renderEvents_split s hj
  refine ⟨before ++ posReport s j ++ shiftEvents s.cfg (posMask s j) ++ [.drive (enLine j) true],
    .drive (enLine j) false :: later, ?_, fun p hclk k => ?_⟩
  · simp only [hsplit, otherEvents, if_neg hshown, List.append_assoc, List.cons_append, List.nil_append]
  · obtain ⟨-, hsrq⟩ := after_shiftEvents s.cfg (p.after before) (posMask s j) (hlow p hclk)
    rw [Pins.after_append, Pins.after_append, Pins.after_append, after_posReport, Pins.after_cons, Pins.after_nil,
      apply_enLine hj, hsrq]
    exact segLit_of_enabled (by rw [posEnabled_set_enLine hj, if_pos rfl]) k

/-- Settles O27: the settle delay of each position, position 0 apart from the others. -/
theorem renderShowsPositions : Obligations.RenderShowsPositions := by
  intro s hclk
  refine ⟨_, renderEvents s, DisplayMultiplexer.exec_render s, rfl, fun stage p h7 hshown => ?_⟩
  have hshows : ∃ before later, renderEvents s = before ++ .settle :: later ∧
      ∀ q : Pins, q.lines.clk = false → ∀ k : Fin 7,
        segLit (q.after before).lines (q.after before).srq p k = !(posMask s p).getLsbD k.val := by
    by_cases hp : p = 0
    · subst hp
      exact shows_first s (h7 rfl)
    · exact shows_other s hp (hshown.resolve_left hp)
  obtain ⟨before, later, hsplit, hlit⟩ := hshows
  refine ⟨before.length, ?_, ?_⟩
  · rw [hsplit, List.getElem?_append_right (Nat.le_refl _), Nat.sub_self]
    rfl
  · rw [hsplit, List.take_left]
    exact hlit _ hclk

/-! ### Invalid codes -/

/-- What a report of RENDER carries: its position and its code (41 R133). -/
def slotReport : Event → Option (Fin 4 × Code)
  | .report .invalidDigit (.slot p c) => some (p, c)
  | _ => none

theorem slotReports_shiftEvents (c : Params) (b : Byte) : (shiftEvents c b).filterMap slotReport = [] := by
  unfold shiftEvents
  cases c.serial <;> rfl

theorem slotReports_posReport (s : State) (k : Fin 4) :
    (posReport s k).filterMap slotReport = [(k, s.dslot[k])].filter fun x => isInvalid x.2 := by
  unfold posReport
  rw [List.filter_cons, List.filter_nil]
  split <;> rfl

theorem slotReports_firstEvents (s : State) :
    (firstEvents s).filterMap slotReport = [((0 : Fin 4), s.dslot[(0 : Fin 4)])].filter fun x => isInvalid x.2 := by
  simp only [firstEvents, List.filterMap_append, slotReports_shiftEvents, slotReports_posReport]
  simp [slotReport]

theorem slotReports_otherEvents (s : State) (k : Fin 4) :
    (otherEvents s k).filterMap slotReport = [(k, s.dslot[k])].filter fun x => isInvalid x.2 := by
  rw [otherEvents, List.filterMap_append, slotReports_posReport]
  split
  case isTrue => simp [slotReport]
  case isFalse => simp [List.filterMap_append, slotReports_shiftEvents, slotReport]

/-- The only byte a transfer's events transfer is its own. -/
theorem eq_of_shift_mem_shiftEvents {c : Params} {b m : Byte} (h : Event.shift b ∈ shiftEvents c m) : b = m := by
  unfold shiftEvents at h
  split at h
  case h_1 => exact Event.shift.inj (List.mem_singleton.mp h)
  case h_2 => simp at h

/-- No byte that positions 1 to 3 transfer has the enable bit of position 0 (41 R133). -/
theorem seven_of_shift_mem_otherEvents {s : State} {k : Fin 4} (hk : k ≠ 0) {b : Byte}
    (h : Event.shift b ∈ otherEvents s k) : b.getLsbD 7 = false := by
  have hreport : Event.shift b ∉ posReport s k := by
    unfold posReport
    split <;> simp
  obtain hmem := (List.mem_append.mp h).resolve_left hreport
  split at hmem
  case isTrue => simp at hmem
  case isFalse =>
    obtain hmem := (List.mem_append.mp hmem).resolve_right (by simp)
    rw [eq_of_shift_mem_shiftEvents hmem]
    exact posMask_seven s k hk

/-- Settles O28: the reports are those of the four positions in turn; after position 0's events the outputs' bit 7 is 0
and no later byte sets it. -/
theorem invalidSlotsReported : Obligations.InvalidSlotsReported := by
  intro s
  refine ⟨_, firstEvents s ++ restEvents s, restEvents s, DisplayMultiplexer.exec_render s,
    congrArg (s.trace ++ ·) (renderEvents_eq s), ?reports, rfl, fun b hb => ?bytes, fun hclk stage n => ?off⟩
  case reports =>
    show (firstEvents s ++ restEvents s).filterMap slotReport = _
    rw [restEvents]
    simp only [List.filterMap_append, slotReports_firstEvents, slotReports_otherEvents, ← List.filter_append]
    rfl
  case bytes =>
    rw [restEvents, List.mem_append, List.mem_append] at hb
    obtain (hb | hb) | hb := hb <;> exact seven_of_shift_mem_otherEvents (by decide) hb
  case off =>
    rw [Pins.after_append]
    obtain ⟨-, hend⟩ := enabledOnly_firstEvents s (A := fun _ => True) (p := s.pinsWith stage) trivial
      (fun _ _ => trivial) hclk
    have hrest : AtEachPoint (EnabledOnly (· ≠ 0)) ((s.pinsWith stage).after (firstEvents s)) (restEvents s) :=
      atEachPoint_restEvents s (I := fun q => EnabledOnly (· ≠ 0) q ∧ q.lines.clk = false)
        (fun k hk q ⟨hq, hqclk⟩ =>
          have ⟨hpoints, hq'⟩ := enabledOnly_otherEvents s hk hk hq hqclk
          ⟨hpoints, hq'.mono fun _ h => h.1, otherEvents_clk s hk hqclk⟩)
        ⟨hend.mono fun _ h => h.2, firstEvents_clk s hclk⟩
    exact Bool.eq_false_iff.mpr fun h0 => hrest n 0 h0 rfl

end Sys2Proof.RenderTrace
end

section
/-! PROOFS. Which operation writes which element of the state (10 R21), and where the timestamps show (10 R33). -/

namespace Sys2Proof.Frame

open Sys2Proof.Machine Sys2Proof.Safety Sys2Proof.CommandStream

/-! ### What CHKAC and POLL can do -/

/-- Everything a CHKAC can do (43 R187). -/
theorem chkac_next {s t : State} (h : exec .chkac s = .next t) :
    (s.deadline ≠ 0 ∧ DeadlineDue s.cfg s.now s.deadline ∧ t = s.clockDrawn.clearFeedback.finish 0#32) ∨
      (¬(s.deadline ≠ 0 ∧ DeadlineDue s.cfg s.now s.deadline) ∧ t = s.clockDrawn.finish 0#32) := by
  obtain rfl := exec_unique (show exec .chkac s = .next ((checkAutoClear s).finish 0#32) from rfl) h
  exact (checkAutoClear_cases s).imp (fun ⟨harmed, hdue, hclear⟩ => ⟨harmed, hdue, by rw [hclear]⟩)
    fun ⟨hnot, hkeep⟩ => ⟨hnot, by rw [hkeep]⟩

/-- A POLL samples the clock, scans some number of columns, and perhaps writes `LAST` (42 R160). -/
theorem poll_next {s t : State} (h : exec .poll s = .next t) :
    ∃ (n last : Nat) (w : Word), t = { scanState s.clockDrawn n with last := last }.finish w := by
  obtain ⟨n, last, w, hpoll⟩ := FeedbackOutputs.exec_poll_eq_scanned s
  exact ⟨n, last, w, exec_unique h hpoll⟩

/-- Settles O53: each operation's next state, field by field. -/
theorem writersOfState : Obligations.WritersOfState := by
  intro i s t h
  cases i with
  | enc f code =>
    obtain rfl := exec_unique (SegmentEncoder.exec_enc f code s) h
    simp
  | slots s0 s1 s2 s3 =>
    cases h
    simp
  | render =>
    obtain rfl := exec_unique (DisplayMultiplexer.exec_render s) h
    simp
  | poll =>
    obtain ⟨n, last, w, rfl⟩ := poll_next h
    simp [scanState]
  | fires | firef | clrfb | admon | admoff =>
    cases h
    simp [State.clearFeedback]
  | chkac =>
    obtain ⟨-, -, rfl⟩ | ⟨-, rfl⟩ := chkac_next h
    · simp [State.clearFeedback]
    · simp

/-! ### Where the timestamps show -/

/-- A scan neither reads nor writes `DEADLINE` (42 R160). -/
theorem scan_with_deadline (t x : Nat) (cs : List (Fin 4)) (s : State) :
    scan t cs { s with deadline := x } = ({ (scan t cs s).1 with deadline := x }, (scan t cs s).2) := by
  induction cs generalizing s with
  | nil => rfl
  | cons c cs ih =>
    have hrows : ({ s with deadline := x }.pin (colLine c) false).rowsAt 0 = (s.pin (colLine c) false).rowsAt 0 := rfl
    simp only [scan, hrows]
    cases lowestActive ((s.pin (colLine c) false).rowsAt 0) with
    | none => exact ih (((s.pin (colLine c) false).sampleRows c).pin (colLine c) true)
    | some r => rfl

/-- POLL neither reads nor writes `DEADLINE`. -/
theorem pollKeys_with_deadline (x : Nat) (s : State) :
    pollKeys { s with deadline := x } = ({ (pollKeys s).1 with deadline := x }, (pollKeys s).2) := by
  unfold pollKeys
  by_cases hwindow : debounced s.cfg s.now s.last = true
  · rw [if_pos hwindow]
    exact if_pos hwindow
  · rw [if_neg hwindow]
    exact (if_neg hwindow).trans (scan_with_deadline s.now x [0, 1, 2, 3] s.clockDrawn)

/-- A check neither reads nor writes `LAST` (43 R187). -/
theorem checkAutoClear_with_last (x : Nat) (s : State) :
    checkAutoClear { s with last := x } = { checkAutoClear s with last := x } := by
  unfold checkAutoClear
  by_cases hdue : (s.armed && due s.cfg s.now s.deadline) = true
  · rw [if_pos hdue]
    exact if_pos hdue
  · rw [if_neg hdue]
    exact if_neg hdue

/-- Settles O54: no update an operation makes reads the timestamp, except POLL's window and CHKAC's test. -/
theorem hiddenTimestamps : Obligations.HiddenTimestamps := by
  refine fun i s x => ⟨fun hpoll => ?last, fun hchkac => ?deadline⟩
  case last =>
    cases i with
    | enc f code => exact ⟨_, SegmentEncoder.exec_enc f code s, SegmentEncoder.exec_enc f code _⟩
    | render => exact ⟨_, DisplayMultiplexer.exec_render s, DisplayMultiplexer.exec_render _⟩
    | chkac => exact ⟨_, rfl, congrArg (fun u : State => Host.Outcome.next (u.finish 0#32)) (checkAutoClear_with_last x s)⟩
    | poll => exact absurd rfl hpoll
    | slots | fires | firef | clrfb | admon | admoff => exact ⟨_, rfl, rfl⟩
  case deadline =>
    cases i with
    | enc f code => exact ⟨_, x, SegmentEncoder.exec_enc f code s, SegmentEncoder.exec_enc f code _⟩
    | render => exact ⟨_, x, DisplayMultiplexer.exec_render s, DisplayMultiplexer.exec_render _⟩
    | poll =>
      exact ⟨_, x, rfl, congrArg (fun u : State × Word => Host.Outcome.next (u.1.finish u.2)) (pollKeys_with_deadline x s)⟩
    | chkac => exact absurd rfl hchkac
    | slots => exact ⟨_, x, rfl, rfl⟩
    | fires | firef => exact ⟨_, wrapAdd s.cfg.width s.now s.cfg.autoclear, rfl, rfl⟩
    | clrfb => exact ⟨_, 0, rfl, rfl⟩
    | admon | admoff => exact ⟨_, x, rfl, rfl⟩

end Sys2Proof.Frame
end

section
/-! PROOFS. The keypad: its characters and result word, polls and their window, and the columns at each point of a scan
(42). -/

namespace Sys2Proof.Keypad

open Sys2Proof.Machine Sys2Proof.Safety Sys2Proof.CommandStream Sys2Proof.SerialTransfer

/-! ### Characters and results -/

/-- Settles O38: a digit's code is its number in four bits; the rest is the map's rows. -/
theorem charactersDecode : Obligations.CharactersDecode := by
  refine fun m => ⟨fun d => ⟨rfl, ?digit⟩, rfl, rfl, rfl⟩
  case digit => exact Nat.mod_eq_of_lt (Nat.lt_trans d.isLt (by decide))

/-- Settles O39: each of the 256 hit words, cut at its fields. -/
theorem pollResultLayout : Obligations.PollResultLayout := by
  refine ⟨rfl, fun c r e => ?_⟩
  unfold hitWord
  generalize eventCode e = code
  revert c r code
  decide

/-! ### One poll -/

/-- Settles O14: since `LAST` is 0 the gap to it is `now` itself, so the poll falls in the window. -/
theorem earlyPollIsDebounced : Obligations.EarlyPollIsDebounced := by
  intro s hlast hnow
  have hgap : gap s.cfg.width s.now 0 = s.now := by
    rw [gap, Int.ofNat_zero, Int.sub_zero, ← Int.natCast_emod, Nat.mod_eq_of_lt (show s.now < _ from now_lt s 0)]
  refine KeypadScanner.pollInWindow s ?_
  rw [InWindow, hlast, hgap]
  exact Int.ofNat_lt.mpr hnow

theorem lowestActive_eq_none_of_idle {rows : Rows} (h : ∀ r : Fin 4, rows.getLsbD r.val = true) :
    lowestActive rows = none := by
  cases hrow : lowestActive rows with
  | none => rfl
  | some r => exact absurd (h r) (by rw [((lowestActive_eq_some rows r).mp hrow).1]; decide)

/-- Settles O37: the columns before `c` hold no closed key, and in column `c` the rows before `r` hold none. -/
theorem idealMatrixPoll : Obligations.IdealMatrixPoll := by
  intro s K r c hwindow hlaw hkey halone hleast
  have hbefore (c' : Fin 4) (hc : c' < c) : lowestActive (s.rowsAt c'.val) = none := by
    refine lowestActive_eq_none_of_idle fun r' => (hlaw c' r').1 fun hmem => ?_
    have := hleast r' c' hmem
    omega
  have hactive : lowestActive (s.rowsAt c.val) = some r := by
    refine (lowestActive_eq_some _ r).mpr ⟨(hlaw c r).2 hkey halone, fun r' hr => (hlaw c r').1 fun hmem => ?_⟩
    have := hleast r' c hmem
    omega
  exact ⟨_, KeypadScanner.exec_poll_of_not_inWindow hwindow (scan_hit s.clockDrawn s.now c r hbefore hactive), rfl, rfl⟩

/-! ### Two polls -/

/-- The last result of an operation that returned `r` has `r`'s HIT bit. -/
theorem lastHit_finish (s : State) (r : Word) : lastHit (s.finish r) = r.getLsbD 4 := by
  rw [lastHit, State.finish_results, List.getLast?_concat]
  rfl

/-- A poll that hits lies outside the window and records the clock value it sampled; any other keeps `LAST` (42 R151,
R157, R159). -/
theorem poll_last_cases {s t : State} (h : exec .poll s = .next t) :
    (lastHit t = false ∧ t.last = s.last) ∨ (lastHit t = true ∧ ¬InWindow s ∧ t.last = s.now) := by
  by_cases hwindow : InWindow s
  · obtain rfl := exec_unique (KeypadScanner.exec_poll_of_inWindow hwindow) h
    exact .inl ⟨lastHit_finish _ _, rfl⟩
  · obtain ⟨-, hscan⟩ | ⟨c, r, -, hscan⟩ := scan_cases s.clockDrawn s.now
    all_goals obtain rfl := exec_unique (KeypadScanner.exec_poll_of_not_inWindow hwindow hscan) h
    · exact .inl ⟨lastHit_finish _ _, by simp only [State.finish_last, scanState, State.clockDrawn_last]⟩
    · obtain ⟨-, -, -, hbit, -⟩ := pollResultLayout.2 c r (keyEvent s.cfg r c)
      exact .inr ⟨(lastHit_finish _ _).trans hbit, hwindow, rfl⟩

/-- Operations other than POLL keep `LAST`, and all keep the parameters. -/
theorem execAll_keeps_last {is : List Instr} (hpoll : Instr.poll ∉ is) {s t : State} (h : execAll is s = .next t) :
    t.last = s.last ∧ t.cfg = s.cfg := by
  refine execAll_keeps (P := fun u => u.last = s.last ∧ u.cfg = s.cfg) (fun i hi u v hu huv => ?_) ⟨rfl, rfl⟩ h
  obtain ⟨-, -, -, -, hcfg⟩ := exec_next huv
  obtain ⟨-, hwrites, -⟩ := Frame.writersOfState i u v huv
  have hlast : v.last = u.last := by
    by_contra hne
    exact hpoll (hwrites hne ▸ hi)
  exact ⟨hlast.trans hu.1, hcfg.trans hu.2⟩

/-- Settles O35: a first hit puts its clock sample in `LAST`, which puts the second poll in the window. -/
theorem oneHitPerWindow : Obligations.OneHitPerWindow := by
  rintro s a b c mid hfirst hmid hrun hsecond hgap ⟨hhit, hhit'⟩
  obtain ⟨hlast, hcfg⟩ := execAll_keeps_last hmid hrun
  obtain ⟨-, -, -, -, hcfg'⟩ := exec_next hfirst
  obtain ⟨hmiss, -⟩ | ⟨-, -, hnow⟩ := poll_last_cases hfirst
  · exact nomatch hmiss.symm.trans hhit
  obtain ⟨hmiss, -⟩ | ⟨-, hwindow, -⟩ := poll_last_cases hsecond
  · exact nomatch hmiss.symm.trans hhit'
  refine hwindow ?_
  rw [InWindow, hlast, hnow, hcfg, hcfg']
  exact hgap

/-! ### The columns during a scan -/

/-- Acting out the drive of a column line. -/
theorem apply_colLine (c : Fin 4) (p : Pins) (v : Bool) :
    p.apply (.drive (colLine c) v) = { p with lines := p.lines.set (colLine c) v } := by
  match c with
  | 0 | 1 | 2 | 3 => rfl

@[simp] theorem apply_sample (c : Fin 4) (rows : Rows) (p : Pins) : p.apply (.sample c rows) = p := rfl

theorem colActive_set_colLine (l : Lines) (c d : Fin 4) (v : Bool) :
    colActive (l.set (colLine c) v) d = if d = c then !v else colActive l d := by
  rw [colActive, Lines.get_set]
  by_cases hd : d = c
  · rw [if_pos (congrArg colLine hd), if_pos hd]
  · rw [if_neg fun h => hd (colLine_injective h), if_neg hd]
    rfl

/-- A scan's events, acted out, set the lines the scan leaves and nothing else (42 R159). -/
theorem after_scanEvents (s : State) (n : Nat) (p : Pins) :
    p.after (scanEvents s n) = { p with lines := scanLines p.lines n } := by
  unfold scanEvents scanLines
  generalize (List.finRange 4).take n = cs
  induction cs generalizing p with
  | nil => rfl
  | cons c cs ih =>
    rw [List.flatMap_cons, Pins.after_append, ih, List.foldl_cons]
    simp only [Pins.after_cons, Pins.after_nil, apply_colLine, apply_sample]

/-- A column that is driven and restored while all are idle is the one active meanwhile, and all are idle after it. -/
theorem atEachPoint_column {p : Pins} (hidle : ∀ d, colActive p.lines d = false) (c : Fin 4) (rows : Rows) :
    let es := [Event.drive (colLine c) false, .sample c rows, .drive (colLine c) true]
    AtEachPoint (fun q => AtMostOneActive q.lines) p es ∧ ∀ d, colActive (p.after es).lines d = false := by
  have honly : AtMostOneActive (p.lines.set (colLine c) false) := by
    have hc (d : Fin 4) (hd : colActive (p.lines.set (colLine c) false) d = true) : d = c := by
      by_contra hne
      rw [colActive_set_colLine, if_neg hne, hidle d] at hd
      cases hd
    exact fun d e hd he => (hc d hd).trans (hc e he).symm
  have hnone {l : Lines} (hl : ∀ d, colActive l d = false) : AtMostOneActive l := fun d _ hd => by
    rw [hl d] at hd
    cases hd
  have hrestored (d : Fin 4) :
      colActive ((p.lines.set (colLine c) false).set (colLine c) true) d = false := by
    rw [colActive_set_colLine, colActive_set_colLine, hidle d]
    split <;> rfl
  simp only [atEachPoint_cons, atEachPoint_nil, Pins.after_cons, Pins.after_nil, apply_colLine, apply_sample]
  exact ⟨⟨hnone hidle, honly, honly, hnone hrestored⟩, hrestored⟩

/-- From idle columns a scan has at most one active at each point (42 R166). -/
theorem atEachPoint_scanEvents (s : State) (n : Nat) {p : Pins} (hidle : ∀ d, colActive p.lines d = false) :
    AtEachPoint (fun q => AtMostOneActive q.lines) p (scanEvents s n) := by
  unfold scanEvents
  generalize (List.finRange 4).take n = cs
  induction cs generalizing p with
  | nil => exact atEachPoint_nil.mpr fun d _ hd => by rw [hidle d] at hd; cases hd
  | cons c cs ih =>
    obtain ⟨hpoints, hidle'⟩ := atEachPoint_column hidle c (s.rowsAt c.val)
    rw [List.flatMap_cons, atEachPoint_append]
    exact ⟨hpoints, ih hidle'⟩

/-- A scan leaves idle columns idle (42 R166). -/
theorem colActive_scanLines {l : Lines} (hidle : ∀ d, colActive l d = false) (n : Nat) (d : Fin 4) :
    colActive (scanLines l n) d = false := by
  rw [colActive, scanLines_get]
  split
  case isTrue => rfl
  case isFalse => exact hidle d

/-- Settles O36: the columns are driven one after the other, each restored before the next. -/
theorem oneColumnActive : Obligations.OneColumnActive := by
  intro s hidle
  obtain ⟨n, last, w, hpoll⟩ := FeedbackOutputs.exec_poll_eq_scanned s
  exact ⟨_, scanEvents s.clockDrawn n, hpoll, rfl, colActive_scanLines hidle n,
    fun stage => atEachPoint_scanEvents s.clockDrawn n hidle⟩

end Sys2Proof.Keypad
end

section
/-! PROOFS. What every step keeps: the indicators' lines, the lines at rest, the dark display, the timestamps' range; and
that the trace says all that happens on the pins (00 R11, R12, 41 R126, R131, 42 R166, 43 R180). -/

namespace Sys2Proof.Invariants

open Sys2Proof.Machine Sys2Proof.Safety Sys2Proof.CommandStream

/-! ### What an operation can do to the pins -/

/-- A scan drives the columns alone (42 R154). -/
theorem scanLines_get_of_not_column {p : Line} (hp : p ∉ [Line.col0, .col1, .col2, .col3]) (l : Lines) (n : Nat) :
    (scanLines l n).get p = l.get p := by
  refine (scanLines_get l n p).trans (if_neg fun hmem => hp ?_)
  obtain ⟨c, -, rfl⟩ := List.mem_map.mp hmem
  exact colLine_mem c

theorem get_set_of_notMem {ps : List Line} {p q : Line} (hp : p ∉ ps) (hq : q ∈ ps) (l : Lines) (v : Bool) :
    (l.set q v).get p = l.get p := by
  rw [Lines.get_set, if_neg fun h : p = q => hp (h ▸ hq)]

/-- From `s` to `t` only indicator lines change, by events that the trace shows. -/
def OnlyIndicators (s t : State) : Prop :=
  t.srq = s.srq ∧ (∀ p ∉ [Line.succ, .fail, .adm], t.lines.get p = s.lines.get p) ∧
    ∃ es, t.trace = s.trace ++ es ∧ ∀ stage, (s.pinsWith stage).after es = t.pinsWith stage

theorem onlyIndicators_of_eq {s t : State} (hsrq : t.srq = s.srq) (hlines : t.lines = s.lines)
    (htrace : t.trace = s.trace) : OnlyIndicators s t := by
  refine ⟨hsrq, fun p _ => by rw [hlines], [], by rw [htrace, List.append_nil], fun stage => ?_⟩
  rw [Pins.after_nil, State.pinsWith, State.pinsWith, hsrq, hlines]

/-- Clearing feedback drives the two indicators (43 R184). -/
theorem onlyIndicators_clearFeedback (s : State) : OnlyIndicators s s.clearFeedback := by
  rw [State.clearFeedback_eq]
  exact ⟨rfl, fun p hp => (get_set_of_notMem hp (by decide) _ _).trans (get_set_of_notMem hp (by decide) _ _),
    _, rfl, fun _ => rfl⟩

/-- Everything an operation can do to the pins, with the events that say so. -/
theorem exec_pins_cases {i : Instr} {s t : State} (h : exec i s = .next t) :
    (t.lines = renderLines s ∧ t.srq = lastByte s ∧ t.trace = s.trace ++ renderEvents s) ∨
      (∃ (s' : State) (n : Nat), t.lines = scanLines s.lines n ∧ t.srq = s.srq ∧ t.trace = s.trace ++ scanEvents s' n) ∨
      OnlyIndicators s t := by
  cases i with
  | render =>
    obtain rfl := exec_unique (DisplayMultiplexer.exec_render s) h
    exact .inl ⟨rfl, rfl, rfl⟩
  | poll =>
    obtain ⟨n, last, w, rfl⟩ := Frame.poll_next h
    exact .inr (.inl ⟨s.clockDrawn, n, rfl, rfl, rfl⟩)
  | enc f code =>
    obtain rfl := exec_unique (SegmentEncoder.exec_enc f code s) h
    refine .inr (.inr ⟨rfl, fun _ _ => rfl, _, rfl, fun stage => ?_⟩)
    split <;> rfl
  | slots s0 s1 s2 s3 =>
    cases h
    exact .inr (.inr (onlyIndicators_of_eq rfl rfl rfl))
  | fires | firef | admon | admoff =>
    cases h
    exact .inr (.inr ⟨rfl, fun p hp => get_set_of_notMem hp (by decide) _ _, _, rfl, fun _ => rfl⟩)
  | clrfb =>
    cases h
    exact .inr (.inr (onlyIndicators_clearFeedback s))
  | chkac =>
    obtain ⟨-, -, rfl⟩ | ⟨-, rfl⟩ := Frame.chkac_next h
    · exact .inr (.inr (onlyIndicators_clearFeedback s.clockDrawn))
    · exact .inr (.inr (onlyIndicators_of_eq rfl rfl rfl))

/-! ### The trace -/

/-- Settles O60: the events of RENDER, of POLL and of the indicators, each acted out. -/
theorem traceReplaysToLines : Obligations.TraceReplaysToLines := by
  intro s t hclk h
  obtain rfl | rfl | ⟨i, hi⟩ := step_cases h
  · exact ⟨[], (List.append_nil _).symm, fun _ => ⟨rfl, rfl⟩⟩
  · exact ⟨[], (List.append_nil _).symm, fun _ => ⟨rfl, rfl⟩⟩
  · obtain ⟨hlines, hsrq, htrace⟩ | ⟨s', n, hlines, hsrq, htrace⟩ | ⟨-, -, es, htrace, hpins⟩ := exec_pins_cases hi
    · refine ⟨_, htrace, fun stage => ?_⟩
      rw [hlines, hsrq]
      exact RenderTrace.after_renderEvents s stage hclk
    · refine ⟨_, htrace, fun stage => ?_⟩
      rw [Keypad.after_scanEvents, hlines, hsrq]
      exact ⟨rfl, rfl⟩
    · exact ⟨es, htrace, fun stage => by rw [hpins stage]; exact ⟨rfl, rfl⟩⟩

/-! ### The lines at rest and the dark display -/

/-- The lines at rest are those at their reset levels: all but `DATA`, `LATCH` and the indicators (70 R240). -/
theorem linesIdle_iff (s : State) :
    LinesIdle s ↔ ∀ p ∉ [Line.data, .latch, .succ, .fail, .adm], s.lines.get p = Lines.reset.get p := by
  constructor
  · rintro ⟨h1, h2, h3, hclk, hcol⟩ p hp
    have hcol (c : Fin 4) : s.lines.get (colLine c) = true := by simpa [colActive] using hcol c
    cases p with
    | en1 => exact h1
    | en2 => exact h2
    | en3 => exact h3
    | clk => exact hclk
    | col0 => exact hcol 0
    | col1 => exact hcol 1
    | col2 => exact hcol 2
    | col3 => exact hcol 3
    | data | latch | succ | fail | adm => exact absurd (by decide) hp
  · intro h
    refine ⟨h .en1 (by decide), h .en2 (by decide), h .en3 (by decide), h .clk (by decide), fun c => ?_⟩
    rw [colActive, h _ (by revert c; decide)]
    revert c
    decide

/-- An operation keeps the lines at rest: RENDER and POLL put them back, the others do not touch them. -/
theorem exec_keeps_linesIdle {i : Instr} {s t : State} (hs : LinesIdle s) (h : exec i s = .next t) : LinesIdle t := by
  rw [linesIdle_iff] at hs ⊢
  intro p hp
  have hs := hs p hp
  obtain ⟨hlines, -, -⟩ | ⟨s', n, hlines, -, -⟩ | ⟨-, hlines, -⟩ := exec_pins_cases h
  · rw [hlines, Render.renderLines_get]
    cases p with
    | en1 | en2 | en3 => rfl
    | clk =>
      dsimp only
      split
      case isTrue => rfl
      case isFalse => exact hs
    | col0 | col1 | col2 | col3 => exact hs
    | data | latch | succ | fail | adm => exact absurd (by decide) hp
  · rw [hlines]
    by_cases hcol : p ∈ [Line.col0, .col1, .col2, .col3]
    · rw [scanLines_get]
      split
      case isTrue => rw [Reset.linesReset_get, decide_eq_true hcol]
      case isFalse => exact hs
    · rw [scanLines_get_of_not_column hcol, hs]
  · rw [hlines p fun hmem => hp (List.mem_cons_of_mem _ (List.mem_cons_of_mem _ hmem)), hs]

/-- Settles O57: a refusal drives no line, and every operation puts back what it drove. -/
theorem stepKeepsLinesIdle : Obligations.StepKeepsLinesIdle := fun _ _ hs h =>
  step_keeps (fun _ hu => hu) (fun _ _ _ => exec_keeps_linesIdle) hs h

/-- What is enabled depends on the enable lines and the outputs alone (10 R30). -/
theorem posEnabled_congr {l m : Lines} (h : ∀ p ∈ [Line.en1, .en2, .en3], l.get p = m.get p) (q : Byte) (k : Fin 4) :
    posEnabled l q k = posEnabled m q k := by
  match k with
  | 0 => rfl
  | 1 => exact h .en1 (by decide)
  | 2 => exact h .en2 (by decide)
  | 3 => exact h .en3 (by decide)

/-- RENDER ends dark: the enables are off, and the last byte has no bit 7 (41 R126). -/
theorem dark_of_rendered {s t : State} (hlines : t.lines = renderLines s) (hsrq : t.srq = lastByte s) : Dark t := by
  intro k
  rw [hlines, hsrq]
  match k with
  | 0 => exact lastByte_seven s
  | 1 => exact DisplayMultiplexer.renderLines_get_enable s (p := .en1) (by decide)
  | 2 => exact DisplayMultiplexer.renderLines_get_enable s (p := .en2) (by decide)
  | 3 => exact DisplayMultiplexer.renderLines_get_enable s (p := .en3) (by decide)

/-- A dark display stays dark: only RENDER reaches the enables and the outputs. -/
theorem exec_keeps_dark {i : Instr} {s t : State} (hs : Dark s) (h : exec i s = .next t) : Dark t := by
  obtain ⟨hlines, hsrq, -⟩ | ⟨s', n, hlines, hsrq, -⟩ | ⟨hsrq, hlines, -⟩ := exec_pins_cases h
  · exact dark_of_rendered hlines hsrq
  · intro k
    rw [hsrq, ← hs k, hlines]
    exact posEnabled_congr (fun p hp => scanLines_get_of_not_column (by revert p; decide) _ _) _ k
  · intro k
    rw [hsrq, ← hs k]
    exact posEnabled_congr (fun p hp => hlines p (by revert p; decide)) _ k

/-- Settles O30: RENDER ends dark, and each operation keeps the display dark. -/
theorem displayStaysDark : Obligations.DisplayStaysDark :=
  ⟨fun s => ⟨_, DisplayMultiplexer.exec_render s, dark_of_rendered rfl rfl⟩, fun _ _ hs h =>
    step_keeps (fun _ hu => hu) (fun _ _ _ => exec_keeps_dark) hs h⟩

/-! ### The indicators -/

theorem exec_keeps_indicatorsMatch {i : Instr} {s t : State} (hs : IndicatorsMatch s) (h : exec i s = .next t) :
    IndicatorsMatch t := by
  obtain ⟨hsucc, hfail, hadm⟩ := hs
  cases i with
  | enc f code =>
    obtain rfl := exec_unique (SegmentEncoder.exec_enc f code s) h
    exact ⟨hsucc, hfail, hadm⟩
  | slots s0 s1 s2 s3 =>
    cases h
    exact ⟨hsucc, hfail, hadm⟩
  | render =>
    obtain rfl := exec_unique (DisplayMultiplexer.exec_render s) h
    exact ⟨(Render.renderLines_get s .succ).trans hsucc, (Render.renderLines_get s .fail).trans hfail,
      (Render.renderLines_get s .adm).trans hadm⟩
  | poll =>
    obtain ⟨n, last, w, rfl⟩ := Frame.poll_next h
    exact ⟨(scanLines_get_of_not_column (p := .succ) (by decide) s.lines n).trans hsucc,
      (scanLines_get_of_not_column (p := .fail) (by decide) s.lines n).trans hfail,
      (scanLines_get_of_not_column (p := .adm) (by decide) s.lines n).trans hadm⟩
  | fires =>
    cases h
    exact ⟨rfl, hfail, hadm⟩
  | firef =>
    cases h
    exact ⟨hsucc, rfl, hadm⟩
  | clrfb =>
    cases h
    exact ⟨rfl, rfl, hadm⟩
  | admon | admoff =>
    cases h
    exact ⟨hsucc, hfail, rfl⟩
  | chkac =>
    obtain ⟨-, -, rfl⟩ | ⟨-, rfl⟩ := Frame.chkac_next h
    · exact ⟨rfl, rfl, hadm⟩
    · exact ⟨hsucc, hfail, hadm⟩

/-- Settles O56: an operation that writes an indicator drives its line to the same level. -/
theorem stepKeepsIndicatorLines : Obligations.StepKeepsIndicatorLines := fun _ _ hs h =>
  step_keeps (fun _ hu => hu) (fun _ _ _ => exec_keeps_indicatorsMatch) hs h

/-! ### The timestamps -/

/-- `LAST` is kept, or set to the clock sample (42 R157). -/
theorem exec_last {i : Instr} {s t : State} (h : exec i s = .next t) : t.last = s.last ∨ t.last = s.now := by
  by_cases hi : i = .poll
  · subst hi
    exact (Keypad.poll_last_cases h).imp (fun ⟨_, hlast⟩ => hlast) fun ⟨_, _, hlast⟩ => hlast
  · obtain ⟨-, hwrites, -⟩ := Frame.writersOfState i s t h
    exact .inl (not_not.mp (mt hwrites hi))

/-- `DEADLINE` is kept, set to 0, or armed by a fire (43 R181 to R187). -/
theorem exec_deadline {i : Instr} {s t : State} (h : exec i s = .next t) :
    t.deadline = s.deadline ∨ t.deadline = 0 ∨
      (i = .fires ∨ i = .firef) ∧ t.deadline = wrapAdd s.cfg.width s.now s.cfg.autoclear := by
  by_cases hi : i ∈ [Instr.fires, .firef, .clrfb, .chkac]
  · simp only [List.mem_cons, List.not_mem_nil, or_false] at hi
    obtain rfl | rfl | rfl | rfl := hi
    · cases h
      exact .inr (.inr ⟨.inl rfl, rfl⟩)
    · cases h
      exact .inr (.inr ⟨.inr rfl, rfl⟩)
    · cases h
      exact .inr (.inl rfl)
    · obtain ⟨-, -, rfl⟩ | ⟨-, rfl⟩ := Frame.chkac_next h
      · exact .inr (.inl rfl)
      · exact .inl rfl
  · obtain ⟨-, -, hwrites, -⟩ := Frame.writersOfState i s t h
    exact .inl (not_not.mp (mt hwrites hi))

theorem exec_keeps_timesFit {i : Instr} {s t : State} (hs : TimesFit s) (h : exec i s = .next t) : TimesFit t := by
  obtain ⟨hlast, hdeadline⟩ := hs
  obtain ⟨-, -, -, -, hcfg⟩ := exec_next h
  rw [TimesFit, hcfg]
  constructor
  · obtain hkeep | hnow := exec_last h
    · rwa [hkeep]
    · rw [hnow]
      exact now_lt s 0
  · obtain hkeep | hzero | ⟨-, harm⟩ := exec_deadline h
    · rwa [hkeep]
    · rw [hzero]
      exact Nat.two_pow_pos _
    · rw [harm]
      exact wrapAdd_lt _ _ _

/-- Settles O58: what an operation writes to a timestamp is a clock sample, a sum modulo `2^W` or 0. -/
theorem stepKeepsTimestamps : Obligations.StepKeepsTimestamps := fun _ _ hs h =>
  step_keeps (fun _ hu => hu) (fun _ _ _ => exec_keeps_timesFit) hs h

/-! ### Reset -/

/-- Settles O13: the reset levels and the defaults. -/
theorem resetMeetsInvariants : Obligations.ResetMeetsInvariants := by
  refine ⟨⟨rfl, rfl, rfl⟩, (linesIdle_iff _).mpr fun _ _ => rfl, ⟨Nat.two_pow_pos 32, Nat.two_pow_pos 32⟩, ?params⟩
  case params =>
    have hkeymap : keymapWellFormed Config.defaultKeymap = true := by decide
    simp [State.reset, Config.params, Params.wellFormed, hkeymap]

end Sys2Proof.Invariants
end

section
/-! PROOFS. The auto-clear timer through a list of operations: a disarmed timer, the clock samples the checks
take, and which of them clears the feedback (43 R183, R187, R190, 70 R251). -/

namespace Sys2Proof.AutoClear

open Sys2Proof.Machine Sys2Proof.Safety Sys2Proof.CommandStream

/-! ### A disarmed timer -/

/-- A check of a disarmed timer takes its clock sample and changes nothing else (43 R187). -/
theorem exec_chkac_of_disarmed {s : State} (h : s.deadline = 0) :
    exec .chkac s = .next { s with clock := drawnBy s.clock 1, results := s.results ++ [0#32], pc := s.pc + 1 } := by
  obtain ⟨-, -, hkeeps⟩ := FeedbackOutputs.chkacEffect s
  exact hkeeps fun ⟨harmed, _⟩ => harmed h

/-- Settles O49: only a fire arms the timer. -/
theorem clearOncePerArming : Obligations.ClearOncePerArming := by
  intro s t mid hs hfires hfiref h
  refine exec_chkac_of_disarmed (execAll_keeps (P := fun u => u.deadline = 0) (fun i hi u v hu huv => ?_) hs h)
  obtain hkeep | hzero | ⟨rfl | rfl, -⟩ := Invariants.exec_deadline huv
  · exact hkeep.trans hu
  · exact hzero
  · exact absurd hi hfires
  · exact absurd hi hfiref

/-- Checks of a disarmed timer keep it disarmed, and keep both indicators. -/
theorem checks_of_disarmed (n : Nat) {s : State} (hs : s.deadline = 0) :
    ∃ t, execAll (List.replicate n .chkac) s = .next t ∧ t.deadline = 0 ∧ t.succ = s.succ ∧ t.fail = s.fail := by
  obtain ⟨t, ht⟩ := execAll_completes (List.replicate n .chkac) s
  refine ⟨t, ht, execAll_keeps (P := fun u => u.deadline = 0 ∧ u.succ = s.succ ∧ u.fail = s.fail)
    (fun i hi u v hu huv => ?_) ⟨hs, rfl, rfl⟩ ht⟩
  obtain rfl := List.eq_of_mem_replicate hi
  obtain rfl := exec_unique (exec_chkac_of_disarmed hu.1) huv
  exact hu

/-- Settles O47: a deadline of `2^W` is stored as 0, which disarms the timer. -/
theorem sentinelCollision : Obligations.SentinelCollision := by
  intro s n hsum
  have hzero : (s.now + s.cfg.autoclear) % 2 ^ s.cfg.width = 0 := by rw [hsum, Nat.mod_self]
  constructor
  · rw [execAll_cons_of_exec (FeedbackOutputs.firesEffect s).2]
    exact (checks_of_disarmed n hzero).imp fun _ ⟨ht, hdeadline, hsucc, _⟩ => ⟨ht, hdeadline, hsucc⟩
  · rw [execAll_cons_of_exec (FeedbackOutputs.firefEffect s).2]
    exact (checks_of_disarmed n hzero).imp fun _ ⟨ht, hdeadline, _, hfail⟩ => ⟨ht, hdeadline, hfail⟩

/-! ### Which clock samples the checks take -/

/-- How many clock samples an operation takes (10 R41). -/
def samplesOf (i : Instr) : Nat := if timed i then 1 else 0

/-- An operation takes its clock samples and no other (10 R41). -/
theorem exec_clock {i : Instr} {s t : State} (h : exec i s = .next t) : t.clock = drawnBy s.clock (samplesOf i) := by
  cases i with
  | enc f code =>
    obtain rfl := exec_unique (SegmentEncoder.exec_enc f code s) h
    exact (drawnBy_zero _).symm
  | render =>
    obtain rfl := exec_unique (DisplayMultiplexer.exec_render s) h
    exact (drawnBy_zero _).symm
  | poll =>
    obtain ⟨n, last, w, rfl⟩ := Frame.poll_next h
    exact Source.next_eq _
  | chkac =>
    obtain ⟨-, -, rfl⟩ | ⟨-, rfl⟩ := Frame.chkac_next h
    · exact Source.next_eq _
    · exact Source.next_eq _
  | fires | firef =>
    cases h
    exact Source.next_eq _
  | slots | clrfb | admon | admoff =>
    cases h
    exact (drawnBy_zero _).symm

/-- After an operation the clock samples are those that followed the ones it took. -/
theorem exec_nowAt {i : Instr} {s t : State} (h : exec i s = .next t) :
    t.nowAt = fun k => s.nowAt (samplesOf i + k) := by
  obtain ⟨-, -, -, -, hcfg⟩ := exec_next h
  funext k
  rw [State.nowAt, State.nowAt, exec_clock h, hcfg, Source.at_drawnBy]

theorem checkDraws_cons (n : Nat) (i : Instr) (is : List Instr) :
    checkDraws n (i :: is) = (if i = .chkac then [n] else []) ++ checkDraws (samplesOf i + n) is := by
  have hnext : (if timed i then n + 1 else n) = samplesOf i + n := by
    unfold samplesOf
    split <;> omega
  rw [checkDraws, hnext]
  split <;> rfl

/-- Counting the samples from a later one shifts the checks' draws. -/
theorem checkDraws_add (m n : Nat) (is : List Instr) : checkDraws (m + n) is = (checkDraws n is).map (m + ·) := by
  induction is generalizing n with
  | nil => rfl
  | cons i is ih =>
    rw [checkDraws_cons, checkDraws_cons, List.map_append, ← ih, Nat.add_left_comm]
    split <;> rfl

/-- A list of operations with a check in it takes a sample for it. -/
theorem exists_mem_checkDraws (n : Nat) (is : List Instr) : ∃ k, k ∈ checkDraws n (is ++ [.chkac]) := by
  induction is generalizing n with
  | nil => exact ⟨n, List.mem_cons_self⟩
  | cons i is ih =>
    rw [List.cons_append, checkDraws_cons]
    exact (ih _).imp fun _ => List.mem_append_right _

/-! ### A list of operations that leaves the feedback to its checks -/

/-- No check at the clock samples `draws` clears the feedback: the timer is disarmed, or its deadline is due at none
(43 R187). -/
def Uncleared (p : Params) (deadline : Nat) (now : Nat → Nat) (draws : List Nat) : Prop :=
  deadline = 0 ∨ ∀ k ∈ draws, ¬DeadlineDue p (now k) deadline

theorem uncleared_map {p : Params} {d : Nat} {now : Nat → Nat} {draws : List Nat} (m : Nat) :
    Uncleared p d now (draws.map (m + ·)) ↔ Uncleared p d (fun k => now (m + k)) draws := by
  rw [Uncleared, Uncleared, List.forall_mem_map]

/-- An operation that leaves the feedback clears it, if it is a check that finds the deadline due, or keeps it. -/
theorem exec_leavesFeedback {i : Instr} {s t : State} (hi : LeavesFeedback i) (h : exec i s = .next t) :
    (¬Uncleared s.cfg s.deadline s.nowAt (if i = .chkac then [0] else []) ∧
        t.succ = false ∧ t.fail = false ∧ t.deadline = 0) ∨
      (Uncleared s.cfg s.deadline s.nowAt (if i = .chkac then [0] else []) ∧
        t.succ = s.succ ∧ t.fail = s.fail ∧ t.deadline = s.deadline) := by
  obtain ⟨hclrfb, hfires, hfiref⟩ := hi
  by_cases hchkac : i = .chkac
  · subst hchkac
    have hcheck : Uncleared s.cfg s.deadline s.nowAt [0] ↔ ¬(s.deadline ≠ 0 ∧ DeadlineDue s.cfg s.now s.deadline) := by
      rw [Uncleared, List.forall_mem_singleton, not_and_or, not_not]
      rfl
    rw [if_pos rfl, hcheck]
    obtain ⟨harmed, hdue, rfl⟩ | ⟨hnot, rfl⟩ := Frame.chkac_next h
    · exact .inl ⟨not_not.mpr ⟨harmed, hdue⟩, rfl, rfl, rfl⟩
    · exact .inr ⟨hnot, rfl, rfl, rfl⟩
  · obtain ⟨-, -, hdeadline, hsucc, hfail, -⟩ := Frame.writersOfState i s t h
    rw [if_neg hchkac]
    refine .inr ⟨.inr (List.forall_mem_nil _), not_not.mp (mt hsucc ?_), not_not.mp (mt hfail ?_),
      not_not.mp (mt hdeadline ?_)⟩ <;>
    simp [hclrfb, hfires, hfiref, hchkac]

/-- Such a list of operations clears the feedback at its first check that finds the deadline due, or keeps it. -/
theorem execAll_leavesFeedback {is : List Instr} (his : ∀ i ∈ is, LeavesFeedback i) {s t : State}
    (h : execAll is s = .next t) :
    (¬Uncleared s.cfg s.deadline s.nowAt (checkDraws 0 is) ∧ t.succ = false ∧ t.fail = false ∧ t.deadline = 0) ∨
      (Uncleared s.cfg s.deadline s.nowAt (checkDraws 0 is) ∧
        t.succ = s.succ ∧ t.fail = s.fail ∧ t.deadline = s.deadline) := by
  induction is generalizing s with
  | nil =>
    obtain rfl := Host.Outcome.next.inj h
    exact .inr ⟨.inr (List.forall_mem_nil _), rfl, rfl, rfl⟩
  | cons i is ih =>
    obtain ⟨s', -, hi, -, -, -, -, hcfg⟩ := Exceptions.operationsComplete i s
    rw [execAll_cons_of_exec hi] at h
    have hrest := ih (fun j hj => his j (List.mem_cons_of_mem i hj)) h
    rw [checkDraws_cons, checkDraws_add]
    have happend : Uncleared s.cfg s.deadline s.nowAt
        ((if i = .chkac then [0] else []) ++ (checkDraws 0 is).map (samplesOf i + ·)) ↔
          Uncleared s.cfg s.deadline s.nowAt (if i = .chkac then [0] else []) ∧
            Uncleared s.cfg s.deadline s'.nowAt (checkDraws 0 is) := by
      rw [exec_nowAt hi, ← uncleared_map, Uncleared, Uncleared, Uncleared, List.forall_mem_append, or_and_left]
    rw [happend]
    obtain ⟨hclears, hsucc, hfail, hdeadline⟩ | ⟨hkeeps, hsucc, hfail, hdeadline⟩ :=
      exec_leavesFeedback (his i List.mem_cons_self) hi
    · rw [hsucc, hfail, hdeadline] at hrest
      exact .inl ⟨fun hu => hclears hu.1, hrest.elim (fun hc => hc.2) fun hk => hk.2⟩
    · rw [hsucc, hfail, hdeadline, hcfg] at hrest
      exact hrest.imp (fun ⟨hc, hoff⟩ => ⟨fun hu => hc hu.2, hoff⟩) fun ⟨hk, hsame⟩ => ⟨⟨hkeeps, hk⟩, hsame⟩

end Sys2Proof.AutoClear
end

section
/-! PROOFS. The auto-clear after a fire, under both comparisons (43 R192, 70 R252), and the source's host before one (43
R194, 60 R227, R228). -/

namespace Sys2Proof.AutoClear

open Sys2Proof.Machine Sys2Proof.Safety Sys2Proof.CommandStream

/-! ### After a fire -/

/-- The deadline a fire sets (43 R181, R182). -/
def fireDeadline (s : State) : Nat := wrapAdd s.cfg.width s.now s.cfg.autoclear

/-- After a fire and operations that leave the feedback to its checks: either no check has found the deadline due and
the indicators are as the fire left them, or one has and all is off. -/
theorem execAll_after_fire {i : Instr} (hi : timed i = true) {s s' : State} (hfire : exec i s = .next s')
    (hdeadline : s'.deadline = fireDeadline s) {mid : List Instr} (hmid : ∀ j ∈ mid, LeavesFeedback j) :
    ∃ t, execAll (i :: mid) s = .next t ∧
      ((¬Uncleared s.cfg (fireDeadline s) s.nowAt (checkDraws 1 mid) ∧
          t.succ = false ∧ t.fail = false ∧ t.deadline = 0) ∨
        (Uncleared s.cfg (fireDeadline s) s.nowAt (checkDraws 1 mid) ∧ t.succ = s'.succ ∧ t.fail = s'.fail)) := by
  obtain ⟨t, ht⟩ := execAll_completes mid s'
  obtain ⟨-, -, -, -, hcfg⟩ := exec_next hfire
  have hdraws : Uncleared s'.cfg s'.deadline s'.nowAt (checkDraws 0 mid) ↔
      Uncleared s.cfg (fireDeadline s) s.nowAt (checkDraws 1 mid) := by
    rw [exec_nowAt hfire, ← uncleared_map, ← checkDraws_add, hcfg, hdeadline, samplesOf, if_pos hi]
  have hcases := execAll_leavesFeedback hmid ht
  rw [hdraws] at hcases
  exact ⟨t, (execAll_cons_of_exec hfire mid).trans ht, hcases.imp_right fun ⟨hu, hsucc, hfail, _⟩ => ⟨hu, hsucc, hfail⟩⟩

/-- Both fires set the same deadline and turn their own indicator on; so each indicator is on afterwards exactly if no
check has cleared it. -/
theorem fired_iff_uncleared (s : State) {mid : List Instr} (hmid : ∀ i ∈ mid, LeavesFeedback i) :
    (∃ t, execAll (.fires :: mid) s = .next t ∧
      (t.succ = true ↔ Uncleared s.cfg (fireDeadline s) s.nowAt (checkDraws 1 mid)) ∧
        (t.succ = false → t.deadline = 0)) ∧
    ∃ t, execAll (.firef :: mid) s = .next t ∧
      (t.fail = true ↔ Uncleared s.cfg (fireDeadline s) s.nowAt (checkDraws 1 mid)) ∧
        (t.fail = false → t.deadline = 0) := by
  constructor
  · obtain ⟨t, ht, ⟨hu, hsucc, -, hoff⟩ | ⟨hu, hsucc, -⟩⟩ :=
      execAll_after_fire rfl (FeedbackOutputs.firesEffect s).2 rfl hmid
    · exact ⟨t, ht, by simp [hsucc, hu], fun _ => hoff⟩
    · exact ⟨t, ht, by simp [hsucc, hu], fun h => nomatch hsucc.symm.trans h⟩
  · obtain ⟨t, ht, ⟨hu, -, hfail, hoff⟩ | ⟨hu, -, hfail⟩⟩ :=
      execAll_after_fire rfl (FeedbackOutputs.firefEffect s).2 rfl hmid
    · exact ⟨t, ht, by simp [hfail, hu], fun _ => hoff⟩
    · exact ⟨t, ht, by simp [hfail, hu], fun h => nomatch hfail.symm.trans h⟩

/-- With an armed deadline, a test `early` that says when a check does not find it due also says when the indicator is
still on. -/
theorem fired_eq_decide (s : State) {mid : List Instr} (hmid : ∀ i ∈ mid, LeavesFeedback i)
    (harmed : fireDeadline s ≠ 0) (early : Nat → Prop) [DecidablePred early]
    (hearly : ∀ k ∈ checkDraws 1 mid, ¬DeadlineDue s.cfg (s.nowAt k) (fireDeadline s) ↔ early k) :
    (∃ t, execAll (.fires :: mid) s = .next t ∧ t.succ = decide (∀ k ∈ checkDraws 1 mid, early k)) ∧
    ∃ t, execAll (.firef :: mid) s = .next t ∧ t.fail = decide (∀ k ∈ checkDraws 1 mid, early k) := by
  have hiff : Uncleared s.cfg (fireDeadline s) s.nowAt (checkDraws 1 mid) ↔ ∀ k ∈ checkDraws 1 mid, early k := by
    rw [Uncleared, or_iff_right harmed]
    exact forall₂_congr hearly
  obtain ⟨⟨t, ht, hsucc, -⟩, ⟨u, hu, hfail, -⟩⟩ := fired_iff_uncleared s hmid
  exact ⟨⟨t, ht, by rw [Bool.eq_iff_iff, hsucc, hiff, decide_eq_true_iff]⟩,
    ⟨u, hu, by rw [Bool.eq_iff_iff, hfail, hiff, decide_eq_true_iff]⟩⟩

/-! ### The two comparisons -/

theorem deadlineDue_absolute {p : Params} (h : p.autoclearCmp = .absolute) (t d : Nat) :
    DeadlineDue p t d ↔ d ≤ t := by
  rw [DeadlineDue, h]

theorem deadlineDue_wrapsafe {p : Params} (h : p.autoclearCmp = .wrapsafe) (t d : Nat) :
    DeadlineDue p t d ↔ gap p.width t d < ((2 ^ (p.width - 1) : Nat) : Int) := by
  rw [DeadlineDue, h]

/-- Settles O50: the deadline is the sum itself, and a check finds it due when its clock value has reached it. -/
theorem autoClearAbsolute : Obligations.AutoClearAbsolute := by
  intro s mid hcmp hpos hfits hmid _
  have hdeadline : fireDeadline s = s.now + s.cfg.autoclear := Nat.mod_eq_of_lt hfits
  refine fired_eq_decide s hmid (by omega) (fun k => s.nowAt k < s.now + s.cfg.autoclear) fun k _ => ?_
  rw [deadlineDue_absolute hcmp, hdeadline, Nat.not_le]

/-- The gap to a deadline `a` after `t` is the gap to `t` less `a` (00 R11). -/
theorem gap_wrapAdd (w n t a : Nat) : gap w n (wrapAdd w t a) = (gap w n t - a) % ((2 ^ w : Nat) : Int) := by
  rw [gap, gap, wrapAdd, Int.natCast_emod, Int.sub_emod_emod, Int.natCast_add, Int.emod_sub_emod, Int.sub_sub]

/-- Settles O51: before the deadline the gap to it has wrapped to the upper half of the clock's range, and from it on, as
far as the premise reaches, it is in the lower half. -/
theorem autoClearWrapsafe : Obligations.AutoClearWrapsafe := by
  intro s mid hcmp hwidth hauto harmed hmid hnear
  refine fired_eq_decide s hmid harmed (fun k => gap s.cfg.width (s.nowAt k) s.now < (s.cfg.autoclear : Int))
    fun k hk => ?_
  have hnear := hnear k hk
  have hnonneg := gap_nonneg s.cfg.width (s.nowAt k) s.now
  have hhalf : 2 ^ s.cfg.width = 2 * 2 ^ (s.cfg.width - 1) := by
    rw [← Nat.pow_succ', Nat.succ_eq_add_one, Nat.sub_add_cancel hwidth]
  rw [deadlineDue_wrapsafe hcmp, fireDeadline, gap_wrapAdd, hhalf]
  generalize gap s.cfg.width (s.nowAt k) s.now = g at *
  generalize 2 ^ (s.cfg.width - 1) = half at *
  by_cases hearly : g < (s.cfg.autoclear : Int)
  · have hwrapped : (g - s.cfg.autoclear) % ((2 * half : Nat) : Int) = g - s.cfg.autoclear + (2 * half : Nat) := by
      rw [← Int.add_emod_right, Int.emod_eq_of_lt] <;> omega
    rw [hwrapped]
    omega
  · rw [Int.emod_eq_of_lt] <;> omega

/-- Settles O52: the wrapped deadline is small, so the first check finds it due. -/
theorem wrappedDeadlineClearsEarly : Obligations.WrappedDeadlineClearsEarly := by
  intro s mid hcmp hauto hwraps hmid hlate
  have hdeadline : fireDeadline s + 2 ^ s.cfg.width = s.now + s.cfg.autoclear := by
    have hnow : s.now < 2 ^ s.cfg.width := now_lt s 0
    rw [fireDeadline, wrapAdd, Nat.mod_eq_sub_mod hwraps.le, Nat.mod_eq_of_lt (by omega)]
    omega
  have hmid' : ∀ i ∈ mid ++ [.chkac], LeavesFeedback i := by
    rw [List.forall_mem_append, List.forall_mem_singleton]
    exact ⟨fun i hi => (hmid i hi).1, by decide, by decide, by decide⟩
  have hcleared : ¬Uncleared s.cfg (fireDeadline s) s.nowAt (checkDraws 1 (mid ++ [.chkac])) := by
    obtain ⟨k, hk⟩ := exists_mem_checkDraws 1 mid
    rintro (hzero | hnone)
    · omega
    · refine hnone k hk ((deadlineDue_absolute hcmp _ _).mpr ?_)
      have := hlate k hk
      omega
  obtain ⟨⟨t, ht, hsucc, htoff⟩, ⟨u, hu, hfail, huoff⟩⟩ := fired_iff_uncleared s hmid'
  have hsucc := Bool.eq_false_iff.mpr (mt hsucc.mp hcleared)
  have hfail := Bool.eq_false_iff.mpr (mt hfail.mp hcleared)
  exact ⟨⟨t, ht, hsucc, htoff hsucc⟩, ⟨u, hu, hfail, huoff hfail⟩⟩

/-! ### The source's host -/

/-- The operation is FIRES or FIREF. -/
def isFire : Instr → Bool
  | .fires => true
  | .firef => true
  | _ => false

theorem isFire_asmShow (ds : List Code) : isFire (asmShow ds) = false := rfl

/-- What the source's host issues for a key: no fire at all, or CLRFB and one operation, with no fire after them (60 R227,
R228). -/
theorem hostIssues_fires {v : HostView} {e : KeyEvent} {seq : List Instr} (h : seq ∈ hostIssues v e) :
    (∀ i ∈ seq, isFire i = false) ∨ ∃ i rest, seq = .clrfb :: i :: rest ∧ ∀ j ∈ rest, isFire j = false := by
  have hblank : ∀ i ∈ asmBlank, isFire i = false := by decide
  unfold hostIssues at h
  cases e with
  | digit d =>
    dsimp only at h
    split at h <;> obtain rfl := List.mem_singleton.mp h
    · exact .inl (List.forall_mem_singleton.mpr (isFire_asmShow _))
    · exact .inl (List.forall_mem_nil _)
  | delete =>
    obtain rfl := List.mem_singleton.mp h
    exact .inl (List.forall_mem_cons.mpr ⟨rfl, List.forall_mem_singleton.mpr (isFire_asmShow _)⟩)
  | clear =>
    obtain rfl := List.mem_singleton.mp h
    exact .inl (List.forall_mem_cons.mpr ⟨rfl, hblank⟩)
  | enter =>
    cases hmode : v.mode <;> simp only [hmode, List.mem_singleton] at h <;> exact .inr ⟨_, asmBlank, h, hblank⟩
  | adminToggle =>
    cases hmode : v.mode <;> simp only [hmode, List.mem_singleton] at h
    case admin =>
      subst h
      exact .inl (by decide)
    case normal => exact .inr ⟨_, asmBlank, h, hblank⟩
  | secondarySet =>
    cases hmode : v.mode <;> simp only [hmode] at h
    case admin =>
      split at h
      case isTrue =>
        obtain rfl | h := List.mem_cons.mp h
        · exact .inr ⟨_, [], rfl, List.forall_mem_nil _⟩
        · exact .inr ⟨_, asmBlank, List.mem_singleton.mp h, hblank⟩
      case isFalse => exact .inr ⟨_, [], List.mem_singleton.mp h, List.forall_mem_nil _⟩
    case normal =>
      obtain rfl | h := List.mem_cons.mp h
      · exact .inl (List.forall_mem_nil _)
      · obtain rfl := List.mem_singleton.mp h
        exact .inl (by decide)
  | none =>
    obtain rfl := List.mem_singleton.mp h
    exact .inl (List.forall_mem_nil _)

/-- Settles O55: before a fire the host has issued CLRFB and nothing else. -/
theorem hostClearsBeforeFire : Obligations.HostClearsBeforeFire := by
  intro v e seq before after fire s t hseq hsplit hfire hrun
  have hfire : isFire fire = true := by obtain rfl | rfl := hfire <;> rfl
  have hno {is : List Instr} (his : ∀ i ∈ is, isFire i = false) : fire ∉ is := fun hmem =>
    nomatch hfire.symm.trans (his fire hmem)
  obtain hnone | ⟨i, rest, hclear, hrest⟩ := hostIssues_fires hseq
  · exact absurd (hsplit ▸ List.mem_append_right _ List.mem_cons_self) (hno hnone)
  · rw [hclear] at hsplit
    match before, hsplit with
    | [], hsplit =>
      obtain ⟨rfl, -⟩ := List.cons.inj hsplit
      cases hfire
    | [_], hsplit =>
      obtain ⟨rfl, -⟩ := List.cons.inj hsplit
      cases hrun
      exact ⟨rfl, rfl, rfl⟩
    | _ :: _ :: more, hsplit =>
      obtain ⟨-, hsplit⟩ := List.cons.inj hsplit
      obtain ⟨-, rfl⟩ := List.cons.inj hsplit
      exact absurd (List.mem_append_right _ List.mem_cons_self) (hno hrest)

end Sys2Proof.AutoClear
end

section
/-! PROOFS. The segment table (40 R102). -/

namespace Sys2Proof.SegmentEncoder

open Sys2Proof.Machine

/-- Settles O16: the ten rows, and the ten codes against the blank mask. -/
theorem segmentTable : Obligations.SegmentTable := by
  constructor <;> decide

end Sys2Proof.SegmentEncoder
end
